-- ==== Sys2Proof/Word.lean ====
section
/-! DEFINITION. The word types of the block and the names its command fields stand for (spec/30_encoding.md R91 to R93). -/
namespace Sys2Proof

/-- A Frame Store, Source Memory or font byte (R66: every memory access is one byte). -/
abbrev Byte := BitVec 8

/-- A host register, and the command word written to `CMD` (R11, R90). -/
abbrev Word := BitVec 16

/-- The raster op of `CMD16` (R92), in the order of the source's enumeration. -/
inductive RasterOp where
  | copy | xor | and | or
  deriving DecidableEq, Repr

/-- The alignment of `CMD16` (R93). -/
inductive Align where
  | left | right
  deriving DecidableEq, Repr

/-- A Rectangle register number, the value of `RA` or `RB` (R28, R91). -/
inductive RectIx where
  | rc0 | rc1 | rc2 | rc3
  deriving DecidableEq, Repr

/-- The five operand fields of a command word (R91). Every command word carries all five; R96 says which of them a
command reads, and R97 that it ignores the others. -/
structure Fields where
  /-- `RB`, bits 11:10. -/
  rb : RectIx
  /-- `RA`, bits 9:8. -/
  ra : RectIx
  /-- `NR`, bit 7: the `rect` parameter is null. -/
  nr : Bool
  /-- `AL`, bit 6. -/
  al : Align
  /-- `ROP`, bits 5:4. -/
  rop : RasterOp
  deriving DecidableEq, Repr

end Sys2Proof
end

