-- ==== Sys2Proof/Config.lean ====
section
/-! DEFINITION. What an implementation of the block fixes at build time (spec/00_scope.md R5 to R11), and the values the
spec leaves free. -/
namespace Sys2Proof

/-- The build-time configuration `Cfg` of 00_scope.md section 4. Its bounds (R5, R7, R8, R10) are `Cfg.wf`
(WellFormed.lean). `FONT_COUNT` is the length of `font` (log 18). -/
structure Cfg where
  /-- `HORIZONTAL_BYTES` (R5): bytes of visible pixels per row. -/
  hb : Nat
  /-- `PADDING` (R5): extra byte columns per row. -/
  pad : Nat
  /-- `VERTICAL_LINES` (R5): number of rows. -/
  vl : Nat
  /-- `H_TOTAL` (R8): ticks per line period. -/
  hTotal : Nat
  /-- `H_SYNC` (R8): line sync width in ticks. -/
  hSync : Nat
  /-- `H_BACK` (R8): line back porch in ticks. -/
  hBack : Nat
  /-- `V_TOTAL` (R8): lines per frame period. -/
  vTotal : Nat
  /-- `V_SYNC` (R8): frame sync width in lines. -/
  vSync : Nat
  /-- `V_BACK` (R8): frame back porch in lines. -/
  vBack : Nat
  /-- `FONT_OFFSET` (R10): the character code of glyph 0. -/
  fontOffset : Nat
  /-- `FONT` (R10): the glyphs, each the list of its eight rows, top row first. -/
  font : List (List Byte)
  deriving DecidableEq, Repr

/-- `COLS = HB + PAD` (R6). -/
def Cfg.cols (c : Cfg) : Nat := c.hb + c.pad
/-- `ROWS = VL` (R6). -/
def Cfg.rows (c : Cfg) : Nat := c.vl
/-- `PIXELS_X = 8 * HB` (R6). -/
def Cfg.pixelsX (c : Cfg) : Nat := 8 * c.hb
/-- `PIXELS_Y = VL` (R6). -/
def Cfg.pixelsY (c : Cfg) : Nat := c.vl
/-- `FS_BYTES = ROWS * COLS` (R6). -/
def Cfg.fsBytes (c : Cfg) : Nat := c.rows * c.cols
/-- `H_BP = H_SYNC + H_BACK` (R8). -/
def Cfg.hBp (c : Cfg) : Nat := c.hSync + c.hBack
/-- `V_BP = V_SYNC + V_BACK` (R8). -/
def Cfg.vBp (c : Cfg) : Nat := c.vSync + c.vBack
/-- `FONT_COUNT` (R10): the number of glyphs. -/
def Cfg.fontCount (c : Cfg) : Nat := c.font.length

/-- The four agents (R15). -/
inductive Agent where
  | host  -- register accesses, Source Memory writes, the reset input
  | tg    -- the Timing Generator
  | te    -- the scanline Transfer Engine
  | de    -- the Draw Engine
  deriving DecidableEq, Repr, Inhabited

/-- FREE VALUE (log 3). Which agent takes turn number `n` when the state's own schedule names none: R15 lets any agent
whose step is enabled go next, and fixes no order. -/
opaque Config.agentChoice : Nat → Agent

/-- FREE VALUE (log 6). What the Frame Store byte at an address holds after reset number `n` and before the next INIT:
R21 "unspecified, every byte may hold any value", R260 "not necessarily the same value after two resets". -/
opaque Config.powerOnByte : Nat → Nat → Byte

/-- An all-zero glyph of the test font. -/
def Config.blankGlyph : List Byte := [0x00, 0x00, 0x00, 0x00, 0x00, 0x00, 0x00, 0x00]
/-- Glyph 33 of the test font of 95_test_vectors.md (code 65, "A"). -/
def Config.glyphA : List Byte := [0x18, 0x24, 0x42, 0x7E, 0x42, 0x42, 0x42, 0x00]
/-- Glyph 34 of the test font of 95_test_vectors.md (code 66, "B"). -/
def Config.glyphB : List Byte := [0x7C, 0x42, 0x7C, 0x42, 0x42, 0x7C, 0x00, 0x00]

/-- DESIGN CHOICE (log 2). Configuration C of 95_test_vectors.md with its test font: the configuration of
`State.reset`. The spec leaves every parameter open (91_not_in_source.md N1); no statement rests on these values. -/
def Config.reference : Cfg where
  hb := 4
  pad := 1
  vl := 10
  hTotal := 8
  hSync := 1
  hBack := 1
  vTotal := 14
  vSync := 1
  vBack := 1
  fontOffset := 32
  font := List.replicate 33 Config.blankGlyph ++ [Config.glyphA, Config.glyphB]

end Sys2Proof
end

