-- ==== Sys2Proof/Syntax.lean ====
section
/-! DEFINITION. The fourteen commands (spec/30_encoding.md R95, spec/opcode_table.json), one constructor per row. -/
namespace Sys2Proof

/-- A decoded command word: the row of R95 and the operand fields of R91, all of them, as R102 decodes them. -/
inductive Instr where
  | point    (f : Fields)  -- OP 0x1, R180
  | line     (f : Fields)  -- OP 0x2, R182
  | rect     (f : Fields)  -- OP 0x3, R185
  | rectr    (f : Fields)  -- OP 0x4, R186
  | bitblt   (f : Fields)  -- OP 0x5, R202
  | text     (f : Fields)  -- OP 0x6, R205
  | texta    (f : Fields)  -- OP 0x7, R206
  | invline  (f : Fields)  -- OP 0x8, R221
  | invtline (f : Fields)  -- OP 0x9, R222
  | clrtline (f : Fields)  -- OP 0xA, R223
  | copyrect (f : Fields)  -- OP 0xB, R224
  | getcrect (f : Fields)  -- OP 0xC, R225
  | init     (f : Fields)  -- OP 0xD, R226
  | clear    (f : Fields)  -- OP 0xE, R227
  deriving DecidableEq, Repr

end Sys2Proof
end

