-- ==== Sys2Proof/WellFormed.lean ====
section
/-! DEFINITION. The checks: configurations (spec/00_scope.md R5 to R10), command words (spec/30_encoding.md R98) and
decoded commands. -/
namespace Sys2Proof

/-- The geometry check: `HB >= 1`, `VL >= 1` (R5) and the bounds of R7. -/
def Cfg.geometryOk (c : Cfg) : Bool :=
  decide (1 ≤ c.hb) && decide (1 ≤ c.vl) && decide (c.fsBytes ≤ 65536) &&
    decide (c.pixelsX ≤ 32767) && decide (c.pixelsY ≤ 32767)

/-- The timing check: all six values are in `0..65535` (R8). A period of 0 passes: INIT detects it (R9). -/
def Cfg.timingOk (c : Cfg) : Bool :=
  decide (c.hTotal ≤ 65535) && decide (c.hSync ≤ 65535) && decide (c.hBack ≤ 65535) &&
    decide (c.vTotal ≤ 65535) && decide (c.vSync ≤ 65535) && decide (c.vBack ≤ 65535)

/-- The font check: `FONT_OFFSET` in `0..255`, `FONT_OFFSET + FONT_COUNT <= 256`, eight rows a glyph (R10). -/
def Cfg.fontOk (c : Cfg) : Bool :=
  decide (c.fontOffset ≤ 255) && decide (c.fontOffset + c.fontCount ≤ 256) &&
    c.font.all (fun g => decide (g.length = 8))

/-- A configuration of this block (R7: one outside the bounds "is not a configuration of this block; a model refuses
it"). -/
def Cfg.wf (c : Cfg) : Bool := c.geometryOk && c.timingOk && c.fontOk

/-- Why a command word is illegal (R98, R102). -/
inductive IllegalWord where
  /-- `Z`, bits 15:12, is not 0. -/
  | reservedBits
  /-- `OP = 0x0`. -/
  | opcodeZero
  /-- `OP = 0xF`. -/
  | opcodeFifteen
  deriving DecidableEq, Repr

/-- A legal command word: `Z = 0` and `OP` neither `0x0` nor `0xF` (R98). -/
def legalWord (w : Word) : Bool :=
  decide (w.extractLsb' 12 4 = 0) && decide (w.extractLsb' 0 4 ≠ 0) && decide (w.extractLsb' 0 4 ≠ 15)

/-- Every term of `Instr` is well formed: the types of its fields hold exactly the values the fields of R91 can have,
and R97 accepts every value of a field the command ignores. -/
def Instr.wf (_ : Instr) : Bool := true

end Sys2Proof
end

