-- ==== Sys2Proof/Decode.lean ====
section
/-! DEFINITION. Decoding of a command word, total on all 65536 words (spec/30_encoding.md R102), and the encoder from the
same table (R91, R95). -/
namespace Sys2Proof

/-- `ROP`, bits 5:4 (R92): `COPY = 0`, `XOR = 1`, `AND = 2`, `OR = 3`. -/
def RasterOp.ofBits (b : BitVec 2) : RasterOp :=
  match b.toNat with
  | 0 => .copy
  | 1 => .xor
  | 2 => .and
  | _ => .or

/-- The value of `ROP` for a raster op (R92). -/
def RasterOp.toBits : RasterOp → BitVec 2
  | .copy => 0
  | .xor => 1
  | .and => 2
  | .or => 3

/-- `AL`, bit 6 (R93): `LEFT = 0`, `RIGHT = 1`. -/
def Align.ofBit (b : Bool) : Align := if b then .right else .left

/-- The value of `AL` for an alignment (R93). -/
def Align.toBit : Align → Bool
  | .left => false
  | .right => true

/-- A Rectangle register number from `RA` or `RB` (R91). -/
def RectIx.ofBits (b : BitVec 2) : RectIx :=
  match b.toNat with
  | 0 => .rc0
  | 1 => .rc1
  | 2 => .rc2
  | _ => .rc3

/-- The value of `RA` or `RB` for a Rectangle register (R91). -/
def RectIx.toBits : RectIx → BitVec 2
  | .rc0 => 0
  | .rc1 => 1
  | .rc2 => 2
  | .rc3 => 3

/-- The operand fields of a word (R91, R102). -/
def Fields.ofWord (w : Word) : Fields where
  rb := .ofBits (w.extractLsb' 10 2)
  ra := .ofBits (w.extractLsb' 8 2)
  nr := w.getLsbD 7
  al := .ofBit (w.getLsbD 6)
  rop := .ofBits (w.extractLsb' 4 2)

/-- R102, the decoding procedure: total, an illegal word is rejected by name. -/
def decode (w : Word) : Except IllegalWord Instr :=
  if w.extractLsb' 12 4 ≠ 0 then .error .reservedBits
  else
    match (w.extractLsb' 0 4).toNat with
    | 0 => .error .opcodeZero
    | 1 => .ok (.point (.ofWord w))
    | 2 => .ok (.line (.ofWord w))
    | 3 => .ok (.rect (.ofWord w))
    | 4 => .ok (.rectr (.ofWord w))
    | 5 => .ok (.bitblt (.ofWord w))
    | 6 => .ok (.text (.ofWord w))
    | 7 => .ok (.texta (.ofWord w))
    | 8 => .ok (.invline (.ofWord w))
    | 9 => .ok (.invtline (.ofWord w))
    | 10 => .ok (.clrtline (.ofWord w))
    | 11 => .ok (.copyrect (.ofWord w))
    | 12 => .ok (.getcrect (.ofWord w))
    | 13 => .ok (.init (.ofWord w))
    | 14 => .ok (.clear (.ofWord w))
    | _ => .error .opcodeFifteen

/-- `OP`, bits 3:0 (R95). -/
def Instr.opcode : Instr → BitVec 4
  | .point _ => 0x1
  | .line _ => 0x2
  | .rect _ => 0x3
  | .rectr _ => 0x4
  | .bitblt _ => 0x5
  | .text _ => 0x6
  | .texta _ => 0x7
  | .invline _ => 0x8
  | .invtline _ => 0x9
  | .clrtline _ => 0xA
  | .copyrect _ => 0xB
  | .getcrect _ => 0xC
  | .init _ => 0xD
  | .clear _ => 0xE

/-- The operand fields of a command. -/
def Instr.fields : Instr → Fields
  | .point f | .line f | .rect f | .rectr f | .bitblt f | .text f | .texta f => f
  | .invline f | .invtline f | .clrtline f | .copyrect f | .getcrect f | .init f | .clear f => f

/-- The command word of `CMD16` (R91): `0000`, `RB`, `RA`, `NR`, `AL`, `ROP`, `OP`, bit 15 on the left. -/
def encode (i : Instr) : Word :=
  0#4 ++ i.fields.rb.toBits ++ i.fields.ra.toBits ++ BitVec.ofBool i.fields.nr ++
    BitVec.ofBool i.fields.al.toBit ++ i.fields.rop.toBits ++ i.opcode

/-- Every ignored field zero, as an assembler writes them (R97). -/
def Fields.zero : Fields := { rb := .rc0, ra := .rc0, nr := false, al := .left, rop := .copy }

/-- The same command with 0 in every field R96 does not list for it (R97). -/
def Instr.canonical : Instr → Instr
  | .point f => .point { Fields.zero with rop := f.rop, nr := f.nr, ra := f.ra }
  | .line f => .line { Fields.zero with rop := f.rop, nr := f.nr, ra := f.ra }
  | .rect f => .rect { Fields.zero with rop := f.rop }
  | .rectr f => .rectr { Fields.zero with rop := f.rop, nr := f.nr, ra := f.ra }
  | .bitblt f => .bitblt { Fields.zero with rop := f.rop }
  | .text f => .text { Fields.zero with rop := f.rop, al := f.al, nr := f.nr, ra := f.ra }
  | .texta f => .texta { Fields.zero with rop := f.rop, al := f.al }
  | .invline _ => .invline Fields.zero
  | .invtline _ => .invtline Fields.zero
  | .clrtline _ => .clrtline Fields.zero
  | .copyrect f => .copyrect { Fields.zero with ra := f.ra, rb := f.rb }
  | .getcrect f => .getcrect { Fields.zero with ra := f.ra }
  | .init _ => .init Fields.zero
  | .clear _ => .clear Fields.zero

/-- The instruction the decoder reads from a table row's bits. A command is one 16-bit word moved whole (R66, R90), so
its only layout is the word itself, with the bits above `nbits` 0; anything wider is no command word. -/
def decodeTableWord (nbits w : Nat) : Option Instr :=
  if w % 2 ^ nbits < 65536 then (decode (BitVec.ofNat 16 (w % 2 ^ nbits))).toOption else none

end Sys2Proof
end

