-- ==== Sys2Proof/Machine/State.lean ====
section
/-! DEFINITION. The state of the block as plain data (spec/10_state.md R20 to R37), the model's own fields beside it, and
the reset state. -/
namespace Sys2Proof.Machine

/-- The Transfer Engine's state `TEST` (R24). -/
inductive TeState where
  | idle | armed | active | complete
  deriving DecidableEq, Repr

/-- A Rectangle register: four 16-bit fields (R28). -/
structure RectReg where
  x : Word
  y : Word
  w : Word
  h : Word
  deriving DecidableEq, Repr

/-- The four Rectangle registers `RC[0..3]` (R28). -/
structure RectFile where
  r0 : RectReg
  r1 : RectReg
  r2 : RectReg
  r3 : RectReg
  deriving DecidableEq, Repr

/-- The function of a `BIT` write action (R14, R162). -/
inductive BitFn where
  | set | clr | tgl | keep
  deriving DecidableEq, Repr

/-- The function of a `BYTE` write action (R14, R162). -/
inductive ByteFn where
  | zero | inv
  deriving DecidableEq, Repr

/-- A write action (R162): one gated Frame Store write. -/
inductive WriteAction where
  /-- `BIT(a, m, f)`. -/
  | bit (a : Nat) (m : Byte) (f : BitFn)
  /-- `BYTE(a, g)`. -/
  | byte (a : Nat) (g : ByteFn)
  deriving DecidableEq, Repr

/-- An entry of the video output history `VOUT`: the triple `(row, k, byte)` (R36, R143). -/
structure Shifted where
  row : Nat
  k : Nat
  byte : Byte
  deriving DecidableEq, Repr

/-- One step of the HOST still to come (R15, R250). -/
inductive HostAct where
  /-- Read the register at an index (R35). -/
  | read (index : BitVec 5)
  /-- Write a value to the register at an index (R35); at index 0 this launches a command (R29, R161). -/
  | write (index : BitVec 5) (value : Word)
  /-- `WAIT` (R101): read STATUS until BUSY is clear, one read a turn. -/
  | wait
  /-- Write a byte of the Source Memory, which the HOST owns (R63, R250). -/
  | smWrite (address : Word) (value : Byte)
  /-- Assert and release the reset input (R260). -/
  | reset
  deriving DecidableEq, Repr

/-- What a HOST register read returned (R35). -/
structure HostRead where
  index : BitVec 5
  value : Word
  deriving DecidableEq, Repr

/-- What the Frame Store bytes hold that no write has touched since the last reset or INIT (log 6). -/
inductive FsFill where
  /-- After reset: every byte any value (R21, R260). -/
  | powerOn
  /-- After INIT: every byte 0x00 (R226). -/
  | zeroed
  deriving DecidableEq, Repr

/-- The machine's faults. The block itself raises none (R240). -/
inductive Fault where
  /-- A Frame Store access at an address at or above `FS_BYTES`, where there is no memory (R60). Raised by the TE's
  `shift` and the DE's `write`. Safe: the hardware has no such access, and no state reached from reset makes one. -/
  | noSuchFrameStoreByte (address : Nat)
  deriving DecidableEq, Repr

/-- The machine's refusals. No command's meaning refuses. -/
inductive Refusal where
  /-- Raised by `exec` for a command that has no meaning yet. Safe. -/
  | notModelled (mnemonic : String)
  /-- Raised by `step`: the configuration is outside the bounds of R5, R7, R8 and R10, "not a configuration of this
  block; a model refuses it" (R7). Safe. -/
  | badConfiguration
  /-- Raised by the HOST's Source Memory write: it changes a byte the running BITBLT, TEXT or TEXTA reads, and such a
  program "has no meaning in this spec" (R274, treatment `refuse` of U19). Safe. -/
  | sourceMemoryInUse (address : Nat)
  deriving DecidableEq, Repr

/-- The whole state. The fields from `cfg` to `vout` are R20's list with its parameters and its observation; the last
five are the model's own. -/
structure State where
  /-- The build-time configuration (R5 to R10); no step writes it (log 1). -/
  cfg : Cfg
  /-- Frame Store `FS` (R21): the bytes that differ from what an unlisted address reads as. -/
  fs : List Host.Cell
  /-- What an unlisted Frame Store byte reads as (R21, R226; log 6). -/
  fsFill : FsFill
  /-- The sync flag (R22). -/
  vsync : Bool
  /-- Scanline Cursor: the row index (R23). -/
  row : Word
  /-- Scanline Cursor: the address of the row's first byte (R23). -/
  src : Word
  /-- `TEST` (R24). -/
  test : TeState
  /-- The bytes of the current row already shifted out (R24). -/
  k : Nat
  /-- The timers run (R25). -/
  run : Bool
  /-- The tick inside the line period (R25). -/
  hcnt : Word
  /-- The line inside the frame period (R25). -/
  vcnt : Word
  /-- The last accepted command word (R29). -/
  cmd : Word
  /-- The success or failure code of INIT (R32). -/
  result : Word
  /-- Operand registers (R27). -/
  x0 : Word
  y0 : Word
  x1 : Word
  y1 : Word
  bw : Word
  bh : Word
  ptr : Word
  len : Word
  /-- Rectangle registers (R28). -/
  rc : RectFile
  /-- A command with a write list is being executed (R33). -/
  busy : Bool
  /-- The write actions not yet performed (R33). -/
  pend : List WriteAction
  /-- The sticky illegal-word bit (R30, R33, R98). -/
  ill : Bool
  /-- The video output history, an observation (R36). -/
  vout : List Shifted
  /-- The HOST's Source Memory, a parameter of the launch step (R63; log 7). -/
  sm : List Host.Cell
  /-- MODEL: the HOST steps still to come, the next one first (log 5). -/
  inbox : List HostAct
  /-- MODEL: what the HOST's reads returned, oldest first (log 9). -/
  reads : List HostRead
  /-- MODEL: the agents of the next turns, the next one first (log 3). -/
  sched : List Agent
  /-- MODEL: the turns taken so far, the argument of the free agent choice (log 3). -/
  turn : Nat
  /-- MODEL: the resets so far, an argument of the free power-on bytes (log 6). -/
  resets : Nat
  deriving DecidableEq, Repr

/-- A Rectangle register at reset: all fields 0 (R28, R37). -/
def RectReg.zero : RectReg := { x := 0, y := 0, w := 0, h := 0 }

/-- R37, the state after reset, for a configuration: nothing runs and the Frame Store is unspecified. -/
def State.resetOf (c : Cfg) : State where
  cfg := c
  fs := []
  fsFill := .powerOn
  vsync := false
  row := 0
  src := 0
  test := .idle
  k := 0
  run := false
  hcnt := 0
  vcnt := 0
  cmd := 0
  result := 0
  x0 := 0
  y0 := 0
  x1 := 0
  y1 := 0
  bw := 0
  bh := 0
  ptr := 0
  len := 0
  rc := { r0 := .zero, r1 := .zero, r2 := .zero, r3 := .zero }
  busy := false
  pend := []
  ill := false
  vout := []
  sm := []
  inbox := []
  reads := []
  sched := []
  turn := 0
  resets := 0

/-- The machine right after reset (R37), in the configuration of log 2. -/
def State.reset : State := State.resetOf Config.reference

end Sys2Proof.Machine
end

