-- ==== Sys2Proof/Machine/Ops.lean ====
section
/-! DEFINITION. The named operations over memory and registers: byte memories in canonical form, the Frame Store's atomic
accesses (spec/00_scope.md R14), the Rectangle file, the two ways a command is launched (spec/42_draw_engine_and_gate.md
R161), and reset (R260). The block takes no exception and returns from none (spec/60_exceptions.md R240, R248, R249), so
there is no operation for either. -/
namespace Sys2Proof.Machine

/-- What a step answers. -/
abbrev Result := Host.Outcome State Fault Refusal

/-! ### Byte memories -/

/-- Read one byte; an address that is not listed reads as `d` says. -/
def Memory.read (d : Nat → Byte) : List Host.Cell → Nat → Byte
  | [], a => d a
  | (b, v) :: rest, a => if a = b then v else Memory.read d rest a

/-- The entry a memory lists for value `v` at address `a`: none where `v` is what the unlisted address reads as. -/
def Memory.entry (d : Nat → Byte) (a : Nat) (v : Byte) : List Host.Cell :=
  if v = d a then [] else [(a, v)]

/-- Write one byte, keeping the canonical form. -/
def Memory.write (d : Nat → Byte) : List Host.Cell → Nat → Byte → List Host.Cell
  | [], a, v => Memory.entry d a v
  | (b, w) :: rest, a, v =>
    if a < b then Memory.entry d a v ++ (b, w) :: rest
    else if a = b then Memory.entry d a v ++ rest
    else (b, w) :: Memory.write d rest a v

/-- The canonical form: addresses strictly rising, no entry equal to what the unlisted address reads as. -/
abbrev Memory.wf (d : Nat → Byte) (m : List Host.Cell) : Prop :=
  m.Pairwise (fun c e => c.1 < e.1) ∧ ∀ c ∈ m, c.2 ≠ d c.1

/-! ### Frame Store -/

/-- What an unlisted Frame Store byte reads as: 0x00 once INIT has zeroed every byte (R226), a free value between reset
and INIT (R21, R260; log 6). -/
def State.fsUnwritten (s : State) (a : Nat) : Byte :=
  match s.fsFill with
  | .powerOn => Config.powerOnByte s.resets a
  | .zeroed => 0x00

/-- The Frame Store byte at an address, whether or not the address exists. -/
def State.fsByte (s : State) (a : Nat) : Byte := Memory.read s.fsUnwritten s.fs a

/-- `FsRead(a)` (R14): none where there is no memory (R60). -/
def fsRead (s : State) (a : Nat) : Option Byte :=
  if a < s.cfg.fsBytes then some (s.fsByte a) else none

/-- The state with one Frame Store byte replaced. -/
def State.fsPut (s : State) (a : Nat) (v : Byte) : State :=
  { s with fs := Memory.write s.fsUnwritten s.fs a v }

/-- An atomic read-modify-write of one Frame Store byte (R14, R68); an address that does not exist faults (R60, log 13). -/
def fsRmw (s : State) (a : Nat) (g : Byte → Byte) : Result :=
  if a < s.cfg.fsBytes then .next (s.fsPut a (g (s.fsByte a))) else .fault (.noSuchFrameStoreByte a)

/-- The byte `FsRmwBit(a, m, f)` leaves where it found `v` (R14). -/
def BitFn.apply (f : BitFn) (m v : Byte) : Byte :=
  match f with
  | .set => v ||| m
  | .clr => v &&& ~~~m
  | .tgl => v ^^^ m
  | .keep => v

/-- The byte `FsRmwByte(a, g)` leaves where it found `v` (R14). -/
def ByteFn.apply (g : ByteFn) (v : Byte) : Byte :=
  match g with
  | .zero => 0x00
  | .inv => v ^^^ 0xFF

/-- The address a write action stores to. -/
def WriteAction.address : WriteAction → Nat
  | .bit a _ _ => a
  | .byte a _ => a

/-- The byte a write action leaves where it found `v`. -/
def WriteAction.apply : WriteAction → Byte → Byte
  | .bit _ m f, v => f.apply m v
  | .byte _ g, v => g.apply v

/-- Perform a write action (R162). -/
def perform (w : WriteAction) (s : State) : Result := fsRmw s w.address w.apply

/-- The masks with exactly one bit set (R162). -/
def oneBitMasks : List Byte := [0x80, 0x40, 0x20, 0x10, 0x08, 0x04, 0x02, 0x01]

/-- A write action as R162 describes it: an address in `0..FS_BYTES-1`, and for `BIT` a mask with exactly one bit set. -/
def WriteAction.wf (c : Cfg) (w : WriteAction) : Bool :=
  decide (w.address < c.fsBytes) &&
    match w with
    | .bit _ m _ => decide (m ∈ oneBitMasks)
    | .byte _ _ => true

/-- Every Frame Store byte becomes 0x00 (R226): nothing listed, and an unlisted byte reads as 0x00. -/
def State.fsZero (s : State) : State := { s with fs := [], fsFill := .zeroed }

/-! ### Rectangle registers -/

/-- `RC[i]` (R28). -/
def RectFile.get (r : RectFile) : RectIx → RectReg
  | .rc0 => r.r0
  | .rc1 => r.r1
  | .rc2 => r.r2
  | .rc3 => r.r3

/-- The Rectangle file with `RC[i]` replaced (R28). -/
def RectFile.set (r : RectFile) (i : RectIx) (v : RectReg) : RectFile :=
  match i with
  | .rc0 => { r with r0 := v }
  | .rc1 => { r with r1 := v }
  | .rc2 => { r with r2 := v }
  | .rc3 => { r with r3 := v }

/-! ### Launch (R161) -/

/-- Launch a drawing command: `CMD`, the write list and `BUSY` are written in one step (R161). While `BUSY = 1` the write
to `CMD` is ignored (R29, R35, R160). -/
def launchDrawing (w : Word) (acts : List WriteAction) (s : State) : Result :=
  if s.busy then .next s else .next { s with cmd := w, pend := acts, busy := true }

/-- Launch an immediate command: `CMD` is written and the command's effect happens in the same step; `BUSY` stays 0 (R161,
R171). While `BUSY = 1` the write to `CMD` is ignored (R29, R35, R160). -/
def launchImmediate (w : Word) (effect : State → State) (s : State) : Result :=
  if s.busy then .next s else .next (effect { s with cmd := w })

/-- An illegal word written to `CMD` while `BUSY = 0` is stored and sets `ILL`; it launches nothing (R98, R245). -/
def launchIllegal (w : Word) (s : State) : State :=
  if s.busy then s else { s with cmd := w, ill := true }

/-! ### Reset (R260) -/

/-- The reset input: every piece of the block's state takes its value of R37; the configuration, the HOST's Source Memory
and the model's own fields are not the block's (log 10). -/
def applyReset (s : State) : State :=
  { State.resetOf s.cfg with
    sm := s.sm, inbox := s.inbox, reads := s.reads, sched := s.sched, turn := s.turn, resets := s.resets + 1 }

end Sys2Proof.Machine
end

