-- ==== Sys2Proof/Machine/DrawEngine.lean ====
section
/-! DEFINITION. The Draw Engine's own steps (spec/42_draw_engine_and_gate.md): the gated `write` and `finish`. -/
namespace Sys2Proof.Machine

/-- `write` (R163) of the first pending action `w`, the rest being `rest`: the gate is open in this very step. -/
def deWrite (w : WriteAction) (rest : List WriteAction) (s : State) : Result :=
  perform w { s with pend := rest }

/-- `finish` (R164). -/
def deFinish (s : State) : State := { s with busy := false }

/-- A turn of the DE: `finish` when nothing is pending (not gated), `write` while `vsync = 1` (R163, R164); while
`vsync = 0` the engine holds with `PEND` as it is (R167, R169). -/
def deStep (s : State) : Result :=
  if s.busy then
    match s.pend with
    | [] => .next (deFinish s)
    | w :: rest => if s.vsync then deWrite w rest s else .next s
  else .next s

end Sys2Proof.Machine
end

