-- ==== Sys2Proof/Machine/Operands.lean ====
section
/-! DEFINITION. Operand forms: the signed and unsigned readings of a register (spec/00_scope.md R13), the Rectangle operand
and the Source Memory (spec/30_encoding.md R96, spec/20_memory.md R63), pixel addressing and clipping
(spec/42_draw_engine_and_gate.md R170). -/
namespace Sys2Proof.Machine

/-- `s16(r)` (R13): the two's complement value of a register. -/
def s16 (r : Word) : Int := r.toInt

/-- `u16(r)` (R13): the unsigned value of a register. -/
def u16 (r : Word) : Nat := r.toNat

/-- `wrap16(v)` (R13): `v mod 65536` in `0..65535`, for any integer. -/
def wrap16 (v : Int) : Nat := (v % 65536).toNat

/-- A Rectangle value: the fields of a Rectangle register read with `s16` (R28). -/
structure Rect where
  x : Int
  y : Int
  w : Int
  h : Int
  deriving DecidableEq, Repr

/-- The value of a Rectangle register (R28). -/
def RectReg.value (r : RectReg) : Rect := { x := s16 r.x, y := s16 r.y, w := s16 r.w, h := s16 r.h }

/-- The `rect` parameter of a command: null when `NR = 1`, otherwise `RC[RA]` (R96). -/
def rectOperand (f : Fields) (s : State) : Option Rect :=
  if f.nr then none else some (s.rc.get f.ra).value

/-- What a Source Memory byte reads as that the HOST has not written (DESIGN CHOICE, log 7). -/
def smUnwritten (_ : Nat) : Byte := 0x00

/-- `SmRead(p)` (R63): the Source Memory byte at `wrap16(p)`. -/
def smRead (s : State) (p : Int) : Byte := Memory.read smUnwritten s.sm (wrap16 p)

/-- The text operand (R96): the `u16(LEN)` bytes of the Source Memory from `u16(PTR)`. -/
def textOperand (s : State) : List Byte :=
  (List.range (u16 s.len)).map fun (i : Nat) => smRead s ((u16 s.ptr : Int) + (i : Int))

/-- The bytes a row of a `w` pixel wide bitmap takes (R203). -/
def stride (w : Int) : Int := (w + 7) / 8

/-- `smbit(ptr, w)(r, j)` (R203): row `r`, column `j` of the bitmap at `ptr`; bit 7 of a byte is the leftmost pixel. -/
def smBit (s : State) (ptr w : Int) (r j : Nat) : Bool :=
  (smRead s (ptr + (r : Int) * stride w + (j : Int) / 8)).getLsbD (7 - j % 8)

/-- `inside(x, y)` (R170): the display bounds of R6. -/
def inside (c : Cfg) (x y : Int) : Bool :=
  decide (0 ≤ x) && decide (x < c.pixelsX) && decide (0 ≤ y) && decide (y < c.pixelsY)

/-- `inrect(rect, x, y)` (R170): half open, exact arithmetic; the null rectangle contains every pixel. -/
def inrect (r : Option Rect) (x y : Int) : Bool :=
  match r with
  | none => true
  | some r => decide (r.x ≤ x) && decide (x < r.x + r.w) && decide (r.y ≤ y) && decide (y < r.y + r.h)

/-- The address of the byte that holds column `x` of row `y` (R61, R170). -/
def pixAddress (c : Cfg) (x y : Nat) : Nat := y * c.cols + x / 8

/-- The mask of column `x` in its byte, bit 7 leftmost (R61, R170). -/
def pixMask (x : Nat) : Byte := 0x80#8 >>> (x % 8)

/-- The pixel at column `x`, row `y` of the Frame Store: the bit `pix(x, y)` names (R61). -/
def State.pixel (s : State) (x y : Nat) : Bool := (s.fsByte (pixAddress s.cfg x y)).getLsbD (7 - x % 8)

end Sys2Proof.Machine
end

