-- ==== Sys2Proof/Machine/Bitmap.lean ====
section
/-! DEFINITION. The bitmap family BITBLT, TEXT, TEXTA (spec/44_bitblt_text.md). -/
namespace Sys2Proof.Machine

/-! ### The blit core (R200, R201) -/

/-- `bltfn(rop, s)` (R201): the Boolean function of destination bit and source bit. -/
def bltFn (rop : RasterOp) (bit : Bool) : BitFn :=
  match rop with
  | .copy => if bit then .set else .clr
  | .xor => if bit then .tgl else .keep
  | .and => if bit then .keep else .clr
  | .or => if bit then .set else .keep

/-- One bitmap row drawn at column `x` of display row `y`, never cut at the right edge; a bit whose address would be at or
beyond `FS_BYTES` is dropped (R200). -/
def bltRow (c : Cfg) (x y w : Nat) (bits : Nat → Bool) (rop : RasterOp) : List WriteAction :=
  (List.range w).filterMap fun j =>
    if pixAddress c (x + j) y < c.fsBytes then
      some (.bit (pixAddress c (x + j) y) (pixMask (x + j)) (bltFn rop (bits j)))
    else none

/-- The rows of `blt` from bitmap row `r` on, `n` of them, with the early return at the bottom edge (R200). -/
def bltRows (c : Cfg) (x y w : Nat) (src : Nat → Nat → Bool) (rop : RasterOp) : Nat → Nat → List WriteAction
  | 0, _ => []
  | n + 1, r =>
    if c.pixelsY ≤ y + r then []
    else bltRow c x (y + r) w (src r) rop ++ bltRows c x y w src rop n (r + 1)

/-- `blt(x, y, w, h, src, rop)` (R200). -/
def bltActs (c : Cfg) (x y w h : Int) (src : Nat → Nat → Bool) (rop : RasterOp) : List WriteAction :=
  if w ≤ 0 ∨ h ≤ 0 then []
  else if x < 0 ∨ y < 0 ∨ (c.pixelsX : Int) ≤ x then []
  else bltRows c x.toNat y.toNat w.toNat src rop h.toNat 0

/-! ### The text core (R204) -/

/-- `fontbit(g)(r, j)` (R204): row `r`, column `j` of glyph `g`. -/
def fontBit (c : Cfg) (g r j : Nat) : Bool := ((c.font.getD g []).getD r 0x00).getLsbD (7 - j)

/-- `textrun(chars, xs, y, gh, xlim, rop)` (R204). -/
def textRun (c : Cfg) (y gh xlim : Int) (rop : RasterOp) : List Byte → Int → List WriteAction
  | [], _ => []
  | ch :: rest, xc =>
    if ch.toNat < c.fontOffset ∨ c.fontCount ≤ ch.toNat - c.fontOffset then textRun c y gh xlim rop rest xc
    else if xlim < xc + 8 then []
    else
      bltActs c xc y 8 gh (fontBit c (ch.toNat - c.fontOffset)) rop ++ textRun c y gh xlim rop rest (xc + 8)

/-- `xs` of R205 and R206: where a run of `n` characters starts, `x` from the left edge with `LEFT`, ending `x` from the right
edge with `RIGHT`; every character counts, printable or not. -/
def textStart (c : Cfg) (al : Align) (x : Int) (n : Nat) : Int :=
  match al with
  | .left => x
  | .right => c.pixelsX - (x + 8 * n)

/-- `drawTextAligned(x, y, chars, rop, al)` (R206). -/
def textaActs (c : Cfg) (x y : Int) (chars : List Byte) (rop : RasterOp) (al : Align) : List WriteAction :=
  textRun c y 8 c.pixelsX rop chars (textStart c al x chars.length)

/-- `xlim` of R205 for a Rectangle: its right side truncates a `LEFT` run as the display edge does. -/
def textLimit (c : Cfg) (r : Rect) (al : Align) : Int :=
  match al with
  | .left => min c.pixelsX (r.x + r.w)
  | .right => c.pixelsX

/-- `drawText(rect, chars, al, rop)` (R205): the Rectangle places the text and its height clips the glyph rows. -/
def textActs (c : Cfg) (r : Option Rect) (chars : List Byte) (al : Align) (rop : RasterOp) : List WriteAction :=
  match r with
  | none => textRun c 0 8 c.pixelsX rop chars (textStart c al 0 chars.length)
  | some r =>
    textRun c r.y (min 8 (max 0 r.h)) (textLimit c r al) rop chars (textStart c al r.x chars.length)

/-! ### Meanings -/

/-- BITBLT (R202): the bitmap is read from the Source Memory at launch (R63, R203). -/
def execBitblt (f : Fields) (s : State) : Result :=
  launchDrawing (encode (.bitblt f))
    (bltActs s.cfg (s16 s.x0) (s16 s.y0) (s16 s.bw) (s16 s.bh) (smBit s (u16 s.ptr) (s16 s.bw)) f.rop) s

/-- TEXT (R205). -/
def execText (f : Fields) (s : State) : Result :=
  launchDrawing (encode (.text f)) (textActs s.cfg (rectOperand f s) (textOperand s) f.al f.rop) s

/-- TEXTA (R206). -/
def execTexta (f : Fields) (s : State) : Result :=
  launchDrawing (encode (.texta f)) (textaActs s.cfg (s16 s.x0) (s16 s.y0) (textOperand s) f.rop f.al) s

end Sys2Proof.Machine
end

