-- ==== Sys2Proof/Machine/Lifecycle.lean ====
section
/-! DEFINITION. The lifecycle commands INIT and CLEAR (spec/45_rowops_lifecycle.md section 3). -/
namespace Sys2Proof.Machine

/-- A timing period of 0, the one configuration error (R9, R242). -/
def periodError (c : Cfg) : Bool := decide (c.hTotal = 0) || decide (c.vTotal = 0)

/-- `videoInit` (R226): the timers stop and restart at position (0, 0), the transfer in progress is abandoned, every Frame
Store byte is zeroed without the gate, and `RESULT` and `RUN` say whether the timers run. -/
def videoInit (s : State) : State :=
  { s.fsZero with
    hcnt := 0
    vcnt := 0
    vsync := false
    test := .idle
    k := 0
    row := 0
    src := 0
    ill := false
    result := if periodError s.cfg then 1 else 0
    run := !periodError s.cfg }

/-- INIT (R226). -/
def execInit (f : Fields) (s : State) : Result :=
  launchImmediate (encode (.init f)) videoInit s

/-- `videoClearScreen` (R227): every byte, padding included, in ascending address order. -/
def clearActs (c : Cfg) : List WriteAction := (List.range c.fsBytes).map fun a => .byte a .zero

/-- CLEAR (R227). -/
def execClear (f : Fields) (s : State) : Result :=
  launchDrawing (encode (.clear f)) (clearActs s.cfg) s

end Sys2Proof.Machine
end

