-- ==== Sys2Proof/Machine/Pixel.lean ====
section
/-! DEFINITION. The single-pixel family POINT, LINE, RECT, RECTR (spec/43_point_line_rect.md). -/
namespace Sys2Proof.Machine

/-! ### Write lists -/

/-- `pointfn` (R181): the pen is a set bit; `AND` clears. -/
def pointFn : RasterOp → BitFn
  | .copy => .set
  | .xor => .tgl
  | .and => .clr
  | .or => .set

/-- `point(rect, x, y, rop)` (R180): no write action for a clipped pixel. -/
def pointActs (c : Cfg) (r : Option Rect) (x y : Int) (rop : RasterOp) : List WriteAction :=
  if inside c x y && inrect r x y then
    [.bit (pixAddress c x.toNat y.toNat) (pixMask x.toNat) (pointFn rop)]
  else []

/-- The Bresenham walk of R183 along the major axis, as (major, minor) pairs: `n` steps from `(u, v)` with error `e`. -/
def lineWalk (du dv inc1 inc2 : Int) : Nat → Int → Int → Int → List (Int × Int)
  | 0, u, v, _ => [(u, v)]
  | n + 1, u, v, e =>
    (u, v) ::
      if 0 ≤ e then lineWalk du dv inc1 inc2 n (u + du) (v + dv) (e + inc1)
      else lineWalk du dv inc1 inc2 n (u + du) v (e + inc2)

/-- `incx`, `incy` of R183. -/
def lineStep (p q : Int) : Int := if q < p then -1 else 1

/-- `abs(v)` (R13). -/
def absInt (v : Int) : Int := if v < 0 then -v else v

/-- `linepoints(x0, y0, x1, y1)` (R183): x-major when `dx > dy`, y-major otherwise. -/
def linePoints (x0 y0 x1 y1 : Int) : List (Int × Int) :=
  let dx := absInt (x1 - x0)
  let dy := absInt (y1 - y0)
  let incx := lineStep x0 x1
  let incy := lineStep y0 y1
  if dy < dx then
    lineWalk incx incy (2 * (dy - dx)) (2 * dy) dx.toNat x0 y0 (2 * dy - dx)
  else
    (lineWalk incy incx (2 * (dx - dy)) (2 * dx) dy.toNat y0 x0 (2 * dx - dy)).map Prod.swap

/-- `line(rect, x0, y0, x1, y1, rop)` (R182). -/
def lineActs (c : Cfg) (r : Option Rect) (x0 y0 x1 y1 : Int) (rop : RasterOp) : List WriteAction :=
  (linePoints x0 y0 x1 y1).flatMap fun p => pointActs c r p.1 p.2 rop

/-- `rectangle(x0, y0, x1, y1, rop)` (R185): top, bottom, left, right. -/
def rectActs (c : Cfg) (x0 y0 x1 y1 : Int) (rop : RasterOp) : List WriteAction :=
  lineActs c none x0 y0 x1 y0 rop ++ lineActs c none x0 y1 x1 y1 rop ++
    lineActs c none x0 y0 x0 y1 rop ++ lineActs c none x1 y0 x1 y1 rop

/-- `rectangleFromRect(rect, rop)` (R186): the null rectangle is the whole display. -/
def rectrActs (c : Cfg) (r : Option Rect) (rop : RasterOp) : List WriteAction :=
  let v : Rect := r.getD { x := 0, y := 0, w := c.pixelsX, h := c.pixelsY }
  rectActs c v.x v.y (v.x + v.w - 1) (v.y + v.h - 1) rop

/-! ### Meanings -/

/-- POINT (R180). -/
def execPoint (f : Fields) (s : State) : Result :=
  launchDrawing (encode (.point f)) (pointActs s.cfg (rectOperand f s) (s16 s.x0) (s16 s.y0) f.rop) s

/-- LINE (R182). -/
def execLine (f : Fields) (s : State) : Result :=
  launchDrawing (encode (.line f))
    (lineActs s.cfg (rectOperand f s) (s16 s.x0) (s16 s.y0) (s16 s.x1) (s16 s.y1) f.rop) s

/-- RECT (R185). -/
def execRect (f : Fields) (s : State) : Result :=
  launchDrawing (encode (.rect f)) (rectActs s.cfg (s16 s.x0) (s16 s.y0) (s16 s.x1) (s16 s.y1) f.rop) s

/-- RECTR (R186). -/
def execRectr (f : Fields) (s : State) : Result :=
  launchDrawing (encode (.rectr f)) (rectrActs s.cfg (rectOperand f s) f.rop) s

end Sys2Proof.Machine
end

