-- ==== Sys2Proof/Machine/Rows.lean ====
section
/-! DEFINITION. The row commands INVLINE, INVTLINE, CLRTLINE and the Rectangle commands COPYRECT, GETCRECT
(spec/45_rowops_lifecycle.md sections 1 and 2). -/
namespace Sys2Proof.Machine

/-- One row of a band: its `HB` visible bytes, left to right; nothing for a row outside the display (R220). -/
def rowActs (c : Cfg) (r : Int) (g : ByteFn) : List WriteAction :=
  if 0 ≤ r ∧ r < c.pixelsY then (List.range c.hb).map fun k => .byte (r.toNat * c.cols + k) g else []

/-- `rows(y, n, g)` (R220): top to bottom. -/
def rowsActs (c : Cfg) (y : Int) (n : Nat) (g : ByteFn) : List WriteAction :=
  (List.range n).flatMap fun (i : Nat) => rowActs c (y + (i : Int)) g

/-- INVLINE (R221). -/
def execInvline (f : Fields) (s : State) : Result :=
  launchDrawing (encode (.invline f)) (rowsActs s.cfg (s16 s.y0) 1 .inv) s

/-- INVTLINE (R222). -/
def execInvtline (f : Fields) (s : State) : Result :=
  launchDrawing (encode (.invtline f)) (rowsActs s.cfg (s16 s.y0) 8 .inv) s

/-- CLRTLINE (R223). -/
def execClrtline (f : Fields) (s : State) : Result :=
  launchDrawing (encode (.clrtline f)) (rowsActs s.cfg (s16 s.y0) 8 .zero) s

/-- COPYRECT (R224): `RC[RA]` takes the four fields of `RC[RB]`. -/
def execCopyrect (f : Fields) (s : State) : Result :=
  launchImmediate (encode (.copyrect f)) (fun t => { t with rc := t.rc.set f.ra (t.rc.get f.rb) }) s

/-- The Rectangle of the whole display (R225). -/
def clientRect (c : Cfg) : RectReg :=
  { x := 0, y := 0, w := BitVec.ofNat 16 c.pixelsX, h := BitVec.ofNat 16 c.pixelsY }

/-- GETCRECT (R225). -/
def execGetcrect (f : Fields) (s : State) : Result :=
  launchImmediate (encode (.getcrect f)) (fun t => { t with rc := t.rc.set f.ra (clientRect t.cfg) }) s

end Sys2Proof.Machine
end

