-- ==== Sys2Proof/Machine/Dispatch.lean ====
section
/-! DEFINITION. The launch of a command (spec/42_draw_engine_and_gate.md R161): one arm per constructor, one meaning each. -/
namespace Sys2Proof.Machine

-- `exec i s`: the HOST writes the word of command `i` to CMD in state `s`.
def exec (i : Instr) (s : State) : Host.Outcome State Fault Refusal :=
  match i with
  | .point f => Sys2Proof.Machine.execPoint f s
  | .line f => Sys2Proof.Machine.execLine f s
  | .rect f => Sys2Proof.Machine.execRect f s
  | .rectr f => Sys2Proof.Machine.execRectr f s
  | .bitblt f => Sys2Proof.Machine.execBitblt f s
  | .text f => Sys2Proof.Machine.execText f s
  | .texta f => Sys2Proof.Machine.execTexta f s
  | .invline f => Sys2Proof.Machine.execInvline f s
  | .invtline f => Sys2Proof.Machine.execInvtline f s
  | .clrtline f => Sys2Proof.Machine.execClrtline f s
  | .copyrect f => Sys2Proof.Machine.execCopyrect f s
  | .getcrect f => Sys2Proof.Machine.execGetcrect f s
  | .init f => Sys2Proof.Machine.execInit f s
  | .clear f => Sys2Proof.Machine.execClear f s

end Sys2Proof.Machine
end

