-- ==== Sys2Proof/Machine/Flags.lean ====
section
/-! DEFINITION. The flag and pin values computed from the state: `HS`, `VS` (spec/10_state.md R26) and the `STATUS` register
(R30). The block has no condition codes (R22). -/
namespace Sys2Proof.Machine

/-- The line sync pin `HS` (R26, R125). -/
def hsPin (s : State) : Bool := s.run && decide (s.hcnt.toNat < s.cfg.hSync)

/-- The frame sync pin `VS` (R26, R125). -/
def vsPin (s : State) : Bool := s.run && decide (s.vcnt.toNat < s.cfg.vSync)

/-- The `TEST` field of `STATUS`: `IDLE = 0`, `ARMED = 1`, `ACTIVE = 2`, `COMPLETE = 3` (R24). -/
def TeState.code : TeState → BitVec 2
  | .idle => 0
  | .armed => 1
  | .active => 2
  | .complete => 3

/-- `STATUS` (R30), bit 15 on the left: zeros, `VS`, `HS`, `ILL`, `TEST`, `RUN`, `VSYNC`, `BUSY`. -/
def statusWord (s : State) : Word :=
  0#8 ++ BitVec.ofBool (vsPin s) ++ BitVec.ofBool (hsPin s) ++ BitVec.ofBool s.ill ++ s.test.code ++
    BitVec.ofBool s.run ++ BitVec.ofBool s.vsync ++ BitVec.ofBool s.busy

end Sys2Proof.Machine
end

