-- ==== Sys2Proof/Machine/Host.lean ====
section
/-! DEFINITION. The HOST's steps (spec/10_state.md R34, R35; spec/60_exceptions.md R250): register reads and writes, the
write to `CMD` that launches a command, WAIT, Source Memory writes, the reset input. -/
namespace Sys2Proof.Machine

/-- The value a HOST read of a register index returns (R34, R35): index 0x0F reads as 0. -/
def readReg (s : State) (i : BitVec 5) : Word :=
  match i.toNat with
  | 0x00 => s.cmd
  | 0x01 => statusWord s
  | 0x02 => s.result
  | 0x03 => s.x0
  | 0x04 => s.y0
  | 0x05 => s.x1
  | 0x06 => s.y1
  | 0x07 => s.bw
  | 0x08 => s.bh
  | 0x09 => s.ptr
  | 0x0A => s.len
  | 0x0B => s.hcnt
  | 0x0C => s.vcnt
  | 0x0D => s.row
  | 0x0E => s.src
  | 0x0F => 0
  | 0x10 => s.rc.r0.x
  | 0x11 => s.rc.r0.y
  | 0x12 => s.rc.r0.w
  | 0x13 => s.rc.r0.h
  | 0x14 => s.rc.r1.x
  | 0x15 => s.rc.r1.y
  | 0x16 => s.rc.r1.w
  | 0x17 => s.rc.r1.h
  | 0x18 => s.rc.r2.x
  | 0x19 => s.rc.r2.y
  | 0x1A => s.rc.r2.w
  | 0x1B => s.rc.r2.h
  | 0x1C => s.rc.r3.x
  | 0x1D => s.rc.r3.y
  | 0x1E => s.rc.r3.w
  | _ => s.rc.r3.h

/-- The state with the operand or Rectangle register at an index replaced; a read-only or reserved index is ignored (R34,
R35). `CMD` is not among them: its write is `writeCmd`. -/
def putReg (s : State) (i : BitVec 5) (v : Word) : State :=
  match i.toNat with
  | 0x03 => { s with x0 := v }
  | 0x04 => { s with y0 := v }
  | 0x05 => { s with x1 := v }
  | 0x06 => { s with y1 := v }
  | 0x07 => { s with bw := v }
  | 0x08 => { s with bh := v }
  | 0x09 => { s with ptr := v }
  | 0x0A => { s with len := v }
  | 0x10 => { s with rc := s.rc.set .rc0 { s.rc.r0 with x := v } }
  | 0x11 => { s with rc := s.rc.set .rc0 { s.rc.r0 with y := v } }
  | 0x12 => { s with rc := s.rc.set .rc0 { s.rc.r0 with w := v } }
  | 0x13 => { s with rc := s.rc.set .rc0 { s.rc.r0 with h := v } }
  | 0x14 => { s with rc := s.rc.set .rc1 { s.rc.r1 with x := v } }
  | 0x15 => { s with rc := s.rc.set .rc1 { s.rc.r1 with y := v } }
  | 0x16 => { s with rc := s.rc.set .rc1 { s.rc.r1 with w := v } }
  | 0x17 => { s with rc := s.rc.set .rc1 { s.rc.r1 with h := v } }
  | 0x18 => { s with rc := s.rc.set .rc2 { s.rc.r2 with x := v } }
  | 0x19 => { s with rc := s.rc.set .rc2 { s.rc.r2 with y := v } }
  | 0x1A => { s with rc := s.rc.set .rc2 { s.rc.r2 with w := v } }
  | 0x1B => { s with rc := s.rc.set .rc2 { s.rc.r2 with h := v } }
  | 0x1C => { s with rc := s.rc.set .rc3 { s.rc.r3 with x := v } }
  | 0x1D => { s with rc := s.rc.set .rc3 { s.rc.r3 with y := v } }
  | 0x1E => { s with rc := s.rc.set .rc3 { s.rc.r3 with w := v } }
  | 0x1F => { s with rc := s.rc.set .rc3 { s.rc.r3 with h := v } }
  | _ => s

/-- A HOST write to `CMD` (R29, R161): a legal word launches its command, an illegal one sets `ILL` (R98). -/
def writeCmd (s : State) (w : Word) : Result :=
  match decode w with
  | .ok i => exec i s
  | .error _ => .next (launchIllegal w s)

/-- A HOST register write (R35): ignored while `BUSY = 1`. -/
def writeReg (s : State) (i : BitVec 5) (v : Word) : Result :=
  if i = 0x00 then writeCmd s v else .next (if s.busy then s else putReg s i v)

/-- A HOST register read (R35): changes nothing; the model records what it returned (log 9). -/
def readStep (s : State) (i : BitVec 5) : State :=
  { s with reads := s.reads ++ [{ index := i, value := readReg s i }] }

/-- The launch of `bitBlt(x, y, w, h, ptr, rop)` reads the Source Memory byte at address `a` (R200, R203): some bitmap row
`r` that is drawn has it as its byte number `q`, and the first bit of that byte gets a write action. R200 returns before it
reads a bit where the origin is outside or the row is below the bottom edge, and reads none it drops at `FS_BYTES`. -/
def bitmapReads (c : Cfg) (x y w h : Int) (ptr a : Nat) : Bool :=
  decide (0 < w ∧ 0 < h ∧ 0 ≤ x ∧ 0 ≤ y ∧ x < c.pixelsX) &&
    (List.range (min h.toNat (c.pixelsY - y.toNat))).any fun (r : Nat) =>
      let q := wrap16 ((a : Int) - (ptr : Int) - (r : Int) * stride w)
      decide (q < (stride w).toNat) && decide (pixAddress c (x.toNat + 8 * q) (y.toNat + r) < c.fsBytes)

/-- The text at `ptr`, `n` bytes long, has the byte at address `a`: the launch of TEXT or TEXTA reads every byte of its text
(R96, R205, R206). -/
def textReads (ptr n a : Nat) : Bool := decide (wrap16 ((a : Int) - (ptr : Int)) < n)

/-- The running command read the Source Memory byte at an address at its launch (R274). `CMD` and the operand registers
still hold what it was launched with (R27, R35). -/
def smInUse (s : State) (a : Word) : Bool :=
  s.busy &&
    match decode s.cmd with
    | .ok (.bitblt _) => bitmapReads s.cfg (s16 s.x0) (s16 s.y0) (s16 s.bw) (s16 s.bh) (u16 s.ptr) (u16 a)
    | .ok (.text _) => textReads (u16 s.ptr) (u16 s.len) (u16 a)
    | .ok (.texta _) => textReads (u16 s.ptr) (u16 s.len) (u16 a)
    | _ => false

/-- The HOST writes a Source Memory byte (R63, R250). Changing a byte the running command read has no meaning and is
refused (R274, U19; log 8). -/
def smWrite (s : State) (a : Word) (v : Byte) : Result :=
  if smInUse s a ∧ v ≠ smRead s (u16 a) then .refused (.sourceMemoryInUse a.toNat)
  else .next { s with sm := Memory.write smUnwritten s.sm a.toNat v }

/-- A turn of the HOST: the next step of its list, if there is one (log 5). `WAIT` reads `STATUS` and stays until the read
shows `BUSY` clear (R101). -/
def hostStep (s : State) : Result :=
  match s.inbox with
  | [] => .next s
  | .read i :: rest => .next (readStep { s with inbox := rest } i)
  | .write i v :: rest => writeReg { s with inbox := rest } i v
  | .wait :: rest => .next (readStep (if s.busy then s else { s with inbox := rest }) 0x01)
  | .smWrite a v :: rest => smWrite { s with inbox := rest } a v
  | .reset :: rest => .next (applyReset { s with inbox := rest })

end Sys2Proof.Machine
end

