-- ==== Sys2Proof/Machine/Timing.lean ====
section
/-! DEFINITION. The Timing Generator (spec/40_timing_generator.md): the one step `tick`. -/
namespace Sys2Proof.Machine

/-- The frame back-porch event of this tick (R122): the first tick of line `V_BP`. -/
def frameEvent (s : State) : Bool := decide (s.hcnt.toNat = 0) && decide (s.vcnt.toNat = s.cfg.vBp)

/-- The line back-porch event of this tick (R123). -/
def lineEvent (s : State) : Bool := decide (s.hcnt.toNat = s.cfg.hBp)

/-- The frame event is taken: it sets `vsync` (R122). -/
def raiseFrame (s : State) : State := { s with vsync := s.vsync || frameEvent s }

/-- The line event is taken: it arms the Transfer Engine when `vsync` is set and the engine is idle, and is lost otherwise
(R123, R141, R147). -/
def raiseLine (s : State) : State :=
  if lineEvent s && s.vsync && decide (s.test = .idle) then { s with test := .armed, k := 0 } else s

/-- The next value of a counter with period `total` (R121, R124). -/
def nextCount (v : Word) (total : Nat) : Word := if v.toNat + 1 = total then 0 else BitVec.ofNat 16 (v.toNat + 1)

/-- The position advances; `VCNT` advances exactly when `HCNT` wraps (R120, R121). -/
def advancePosition (s : State) : State :=
  { s with
    hcnt := nextCount s.hcnt s.cfg.hTotal
    vcnt := if s.hcnt.toNat + 1 = s.cfg.hTotal then nextCount s.vcnt s.cfg.vTotal else s.vcnt }

/-- `tick` (R121): the events of the current position, frame before line, then the advance. -/
def tick (s : State) : State := advancePosition (raiseLine (raiseFrame s))

/-- A turn of the TG: `tick` is enabled exactly when `RUN = 1` (R126). -/
def tgStep (s : State) : Result := .next (if s.run then tick s else s)

end Sys2Proof.Machine
end

