-- ==== Sys2Proof/Machine/Transfer.lean ====
section
/-! DEFINITION. The scanline Transfer Engine (spec/41_transfer_engine.md): the steps `start`, `shift`, `done`, `complete`,
and the bits the `VIDEO` pin carries. -/
namespace Sys2Proof.Machine

/-- `start` (R142). -/
def teStart (s : State) : State := { s with test := .active }

/-- `shift` (R143): the byte is read in the step that sends it. -/
def teShift (s : State) : Result :=
  match fsRead s (s.src.toNat + s.k) with
  | some b => .next { s with vout := s.vout ++ [{ row := s.row.toNat, k := s.k, byte := b }], k := s.k + 1 }
  | none => .fault (.noSuchFrameStoreByte (s.src.toNat + s.k))

/-- `done` (R144). -/
def teDone (s : State) : State := { s with test := .complete }

/-- `complete` (R145): the next row, or the wrap that ends the frame and clears `vsync`. -/
def teComplete (s : State) : State :=
  if s.row.toNat + 1 = s.cfg.vl then { s with row := 0, src := 0, vsync := false, k := 0, test := .idle }
  else
    { s with
      row := BitVec.ofNat 16 (s.row.toNat + 1), src := BitVec.ofNat 16 (s.src.toNat + s.cfg.cols), k := 0, test := .idle }

/-- A turn of the TE: at most one of its steps is enabled in any state (R140, R142 to R145). -/
def teStep (s : State) : Result :=
  match s.test with
  | .idle => .next s
  | .armed => .next (teStart s)
  | .active => if s.k < s.cfg.cols then teShift s else if s.k = s.cfg.cols then .next (teDone s) else .next s
  | .complete => .next (teComplete s)

/-- The bits of a byte in the order `VIDEO` carries them, bit 7 first (R66, R143). -/
def videoBits (b : Byte) : List Bool := (List.range 8).map fun i => b.getLsbD (7 - i)

/-- The serial bit stream of a video output history (R36, R143). -/
def videoStream (v : List Shifted) : List Bool := v.flatMap fun e => videoBits e.byte

/-- The `VIDEO` pin whenever no `shift` step is in progress, the level of a dark pixel (R26, R149). -/
def videoIdle : Bool := false

end Sys2Proof.Machine
end

