-- ==== Sys2Proof/Machine/Turn.lean ====
section
/-! DEFINITION. Whose turn it is, and one turn of an agent (spec/00_scope.md R15, spec/20_memory.md R76). -/
namespace Sys2Proof.Machine

/-- The agent that takes the next turn: the schedule's next one, and a free choice when the schedule is empty (log 3). -/
def nextAgent (s : State) : Agent :=
  match s.sched with
  | a :: _ => a
  | [] => Config.agentChoice s.turn

/-- The turn is taken: the schedule moves on. -/
def takeTurn (s : State) : State := { s with sched := s.sched.tail, turn := s.turn + 1 }

/-- The agent has an enabled step (R15): the HOST while its list has one left (log 5), the TG while `RUN = 1` (R121, R126),
the TE in `start`, `shift`, `done` and `complete` (R142 to R145), the DE in `write` and `finish` (R163, R164). -/
def enabled (a : Agent) (s : State) : Bool :=
  match a with
  | .host => !s.inbox.isEmpty
  | .tg => s.run
  | .te =>
    match s.test with
    | .idle => false
    | .armed => true
    | .active => decide (s.k ≤ s.cfg.cols)
    | .complete => true
  | .de => s.busy && (s.pend.isEmpty || s.vsync)

/-- One turn of an agent: its enabled step, or nothing where it has none (log 3). -/
def agentStep (a : Agent) (s : State) : Result :=
  match a with
  | .host => hostStep s
  | .tg => tgStep s
  | .te => teStep s
  | .de => deStep s

/-- The state in which the HOST's next turn, which is the next turn, writes a word to `CMD`. The block has no program
counter and fetches nothing (R31): a command comes from the HOST (log 14). -/
def hostWillWrite (s : State) (w : Word) : State :=
  { s with inbox := .write 0x00 w :: s.inbox, sched := .host :: s.sched }

end Sys2Proof.Machine
end

