-- ==== Sys2Proof/Machine/Step.lean ====
section
/-! DEFINITION. One step of the machine: one turn of one agent (spec/00_scope.md R15). -/
namespace Sys2Proof.Machine

/-- One step. A configuration outside the bounds is refused (R7); otherwise the agent whose turn it is takes it. -/
def step (s : State) : Host.Outcome State Fault Refusal :=
  if s.cfg.wf then agentStep (nextAgent s) (takeTurn s) else .refused .badConfiguration

/-- `s` with the command word whose bits are `w` as what the HOST writes to `CMD` in the next step (log 14). -/
def State.withFetchWord (s : State) (nbits w : Nat) : State := hostWillWrite s (BitVec.ofNat 16 (w % 2 ^ nbits))

end Sys2Proof.Machine
end

