-- ==== Sys2Proof/Machine/HostProgram.lean ====
section
/-! DEFINITION. The HOST-side syntax (spec/30_encoding.md R100) and its pseudo-instructions (R101), as the HOST steps they
stand for. -/
namespace Sys2Proof.Machine

/-- The register names of R34 that R100 writes. -/
inductive Reg where
  | cmd | status | result | x0 | y0 | x1 | y1 | bw | bh | ptr | len | hcnt | vcnt | row | src
  | rcx (i : RectIx) | rcy (i : RectIx) | rcw (i : RectIx) | rch (i : RectIx)
  deriving DecidableEq, Repr

/-- The index of field `j` of `RC[i]`: `0x10 + 4i + j` (R34). -/
def rectIndex (i : RectIx) (j : BitVec 2) : BitVec 5 := 1#1 ++ i.toBits ++ j

/-- The index of a register (R34). -/
def Reg.index : Reg → BitVec 5
  | .cmd => 0x00
  | .status => 0x01
  | .result => 0x02
  | .x0 => 0x03
  | .y0 => 0x04
  | .x1 => 0x05
  | .y1 => 0x06
  | .bw => 0x07
  | .bh => 0x08
  | .ptr => 0x09
  | .len => 0x0A
  | .hcnt => 0x0B
  | .vcnt => 0x0C
  | .row => 0x0D
  | .src => 0x0E
  | .rcx i => rectIndex i 0
  | .rcy i => rectIndex i 1
  | .rcw i => rectIndex i 2
  | .rch i => rectIndex i 3

/-- The `rc` operand of a command line: `null` or `rc0`..`rc3` (R100). -/
inductive RectArg where
  | null
  | rc (i : RectIx)
  deriving DecidableEq, Repr

/-- A line of a HOST program: the lines of R100, then the pseudo-instructions of R101. -/
inductive HostLine where
  | wr (r : Reg) (value : Int)
  | rd (r : Reg)
  | point (rop : RasterOp) (rc : RectArg)
  | line (rop : RasterOp) (rc : RectArg)
  | rect (rop : RasterOp)
  | rectr (rop : RasterOp) (rc : RectArg)
  | bitblt (rop : RasterOp)
  | text (rop : RasterOp) (al : Align) (rc : RectArg)
  | texta (rop : RasterOp) (al : Align)
  | invline
  | invtline
  | clrtline
  | copyrect (dst src : RectIx)
  | getcrect (dst : RectIx)
  | init
  | clear
  | wait
  | setrc (n : RectIx) (x y w h : Int)
  | callPoint (rc : RectArg) (x y : Int) (rop : RasterOp)
  | callLine (rc : RectArg) (x0 y0 x1 y1 : Int) (rop : RasterOp)
  | callRectangle (x0 y0 x1 y1 : Int) (rop : RasterOp)
  | callRectangleFromRect (rc : RectArg) (rop : RasterOp)
  | callBitBlt (x y w h ptr : Int) (rop : RasterOp)
  | callDrawText (rc : RectArg) (ptr len : Int) (al : Align) (rop : RasterOp)
  | callDrawTextAligned (x y ptr len : Int) (rop : RasterOp) (al : Align)
  | callInvertLine (y : Int)
  | callInvertTextLine (y : Int)
  | callClearTextLine (y : Int)
  | callCopyRect (dst src : RectIx)
  | callGetClientRect (dst : RectIx)
  | callVideoInit
  | callVideoClearScreen
  deriving DecidableEq, Repr

/-- The fields an `rc` operand sets: `NR = 1, RA = 0` for `null`, `NR = 0, RA = n` for `rcn` (R100). -/
def RectArg.fields : RectArg → Fields
  | .null => { Fields.zero with nr := true }
  | .rc i => { Fields.zero with ra := i }

/-- `WR reg, value` (R100): a negative value `-n` stands for `wrap16(-n)`. DESIGN CHOICE (log 23): R100 says nothing of a
value above 65535, in a `WR` line or as an argument of a pseudo-instruction; it is taken modulo 65536 as well. -/
def wrLine (r : Reg) (v : Int) : HostAct := .write r.index (BitVec.ofNat 16 (wrap16 v))

/-- `WR CMD, word` for a command (R100). -/
def cmdLine (i : Instr) : HostAct := .write 0x00 (encode i)

/-- The HOST steps a line stands for (R100, R101). Every field a mnemonic does not set is 0. -/
def HostLine.expand : HostLine → List HostAct
  | .wr r v => [wrLine r v]
  | .rd r => [.read r.index]
  | .point rop rc => [cmdLine (.point { rc.fields with rop := rop })]
  | .line rop rc => [cmdLine (.line { rc.fields with rop := rop })]
  | .rect rop => [cmdLine (.rect { Fields.zero with rop := rop })]
  | .rectr rop rc => [cmdLine (.rectr { rc.fields with rop := rop })]
  | .bitblt rop => [cmdLine (.bitblt { Fields.zero with rop := rop })]
  | .text rop al rc => [cmdLine (.text { rc.fields with rop := rop, al := al })]
  | .texta rop al => [cmdLine (.texta { Fields.zero with rop := rop, al := al })]
  | .invline => [cmdLine (.invline Fields.zero)]
  | .invtline => [cmdLine (.invtline Fields.zero)]
  | .clrtline => [cmdLine (.clrtline Fields.zero)]
  | .copyrect d s => [cmdLine (.copyrect { Fields.zero with ra := d, rb := s })]
  | .getcrect d => [cmdLine (.getcrect { Fields.zero with ra := d })]
  | .init => [cmdLine (.init Fields.zero)]
  | .clear => [cmdLine (.clear Fields.zero)]
  | .wait => [.wait]
  | .setrc n x y w h => [wrLine (.rcx n) x, wrLine (.rcy n) y, wrLine (.rcw n) w, wrLine (.rch n) h]
  | .callPoint rc x y rop =>
    [wrLine .x0 x, wrLine .y0 y, cmdLine (.point { rc.fields with rop := rop }), .wait]
  | .callLine rc x0 y0 x1 y1 rop =>
    [wrLine .x0 x0, wrLine .y0 y0, wrLine .x1 x1, wrLine .y1 y1, cmdLine (.line { rc.fields with rop := rop }), .wait]
  | .callRectangle x0 y0 x1 y1 rop =>
    [wrLine .x0 x0, wrLine .y0 y0, wrLine .x1 x1, wrLine .y1 y1, cmdLine (.rect { Fields.zero with rop := rop }), .wait]
  | .callRectangleFromRect rc rop => [cmdLine (.rectr { rc.fields with rop := rop }), .wait]
  | .callBitBlt x y w h ptr rop =>
    [wrLine .x0 x, wrLine .y0 y, wrLine .bw w, wrLine .bh h, wrLine .ptr ptr,
      cmdLine (.bitblt { Fields.zero with rop := rop }), .wait]
  | .callDrawText rc ptr len al rop =>
    [wrLine .ptr ptr, wrLine .len len, cmdLine (.text { rc.fields with rop := rop, al := al }), .wait]
  | .callDrawTextAligned x y ptr len rop al =>
    [wrLine .x0 x, wrLine .y0 y, wrLine .ptr ptr, wrLine .len len,
      cmdLine (.texta { Fields.zero with rop := rop, al := al }), .wait]
  | .callInvertLine y => [wrLine .y0 y, cmdLine (.invline Fields.zero), .wait]
  | .callInvertTextLine y => [wrLine .y0 y, cmdLine (.invtline Fields.zero), .wait]
  | .callClearTextLine y => [wrLine .y0 y, cmdLine (.clrtline Fields.zero), .wait]
  | .callCopyRect d s => [cmdLine (.copyrect { Fields.zero with ra := d, rb := s })]
  | .callGetClientRect d => [cmdLine (.getcrect { Fields.zero with ra := d })]
  | .callVideoInit => [cmdLine (.init Fields.zero), .read 0x02]
  | .callVideoClearScreen => [cmdLine (.clear Fields.zero), .wait]

/-- The HOST steps of a program: its lines in order (R100). -/
def assemble (p : List HostLine) : List HostAct := p.flatMap HostLine.expand

end Sys2Proof.Machine
end

