-- ==== Sys2Proof/Safety.lean ====
section
/-! DEFINITION. The terms the claims use: the invariant of every reachable state (spec/10_state.md R39), what a write list
leaves in the Frame Store, the end of a run (spec/60_exceptions.md R253). -/
namespace Sys2Proof.Machine

/-- R39, clause by clause, and the facts its proof rests on: the configuration is one of this block, the two memories keep
their form, the pending write actions are those of R162, `RESULT` holds one of its codes (R32), and before INIT nothing
runs and no byte has been written (R263). -/
structure Inv (s : State) : Prop where
  cfgWf : s.cfg.wf = true
  fsCanonical : Memory.wf s.fsUnwritten s.fs
  fsInRange : ∀ c ∈ s.fs, c.1 < s.cfg.fsBytes
  smCanonical : Memory.wf smUnwritten s.sm
  smInRange : ∀ c ∈ s.sm, c.1 < 65536
  rowInRange : s.row.toNat < s.cfg.vl
  srcOfRow : s.src.toNat = s.row.toNat * s.cfg.cols
  kInRange : s.k ≤ s.cfg.cols
  kOfIdle : s.test = .idle ∨ s.test = .armed → s.k = 0
  kOfComplete : s.test = .complete → s.k = s.cfg.cols
  hcntInRange : s.hcnt.toNat < max s.cfg.hTotal 1
  vcntInRange : s.vcnt.toNat < max s.cfg.vTotal 1
  runPeriods : s.run = true → 0 < s.cfg.hTotal ∧ 0 < s.cfg.vTotal
  pendOfBusy : s.busy = false → s.pend = []
  pendWf : ∀ w ∈ s.pend, w.wf s.cfg = true
  vsyncLow : s.vsync = false → s.row = 0 ∧ s.test = .idle
  resultCode : s.result = 0 ∨ s.result = 1
  beforeInit : s.fsFill = .powerOn → s.run = false ∧ s.vsync = false ∧ s.fs = []

/-- The state whose Frame Store is what a write list leaves, its actions performed in order (R162); nothing else
changes. -/
def paint (acts : List WriteAction) (s : State) : State :=
  acts.foldl (fun t w => t.fsPut w.address (w.apply (t.fsByte w.address))) s

/-- The HOST's next step asserts the reset input. -/
def hostResets (s : State) : Prop := nextAgent s = .host ∧ s.inbox.head? = some .reset

/-- The HOST's next step launches INIT: it writes a word of INIT to `CMD` while `BUSY = 0`. -/
def hostInits (s : State) : Prop :=
  nextAgent s = .host ∧ s.busy = false ∧ ∃ w f, s.inbox.head? = some (.write 0x00 w) ∧ decode w = .ok (.init f)

/-- The reset values of R37, all but the Frame Store's, which are unspecified: the pins are functions of the state. -/
def resetValues (s : State) : Prop :=
  s.vsync = false ∧ s.row = 0 ∧ s.src = 0 ∧ s.test = .idle ∧ s.k = 0 ∧ s.run = false ∧ s.hcnt = 0 ∧ s.vcnt = 0 ∧
    s.cmd = 0 ∧ s.result = 0 ∧ s.x0 = 0 ∧ s.y0 = 0 ∧ s.x1 = 0 ∧ s.y1 = 0 ∧ s.bw = 0 ∧ s.bh = 0 ∧ s.ptr = 0 ∧ s.len = 0 ∧
    (∀ i, s.rc.get i = { x := 0, y := 0, w := 0, h := 0 }) ∧ s.busy = false ∧ s.pend = [] ∧ s.ill = false ∧
    hsPin s = false ∧ vsPin s = false ∧ videoIdle = false ∧ s.vout = []

/-- A character with a glyph (R204). -/
def printable (c : Cfg) (ch : Byte) : Bool := decide (c.fontOffset ≤ ch.toNat ∧ ch.toNat < c.fontOffset + c.fontCount)

/-- The end of a run of a HOST program (R253): the HOST has no step left, no command runs, the Transfer Engine is between
rows. -/
def runEnded (s : State) : Bool := s.inbox.isEmpty && !s.busy && decide (s.test = .idle)

/-- The state after `n` turns when the agents take them as the schedule `σ` says. -/
def runUnder (σ : Nat → Agent) (n : Nat) (s : State) : Result :=
  Host.Core.run core n { s with sched := (List.range n).map σ }

/-- Weak fairness of a schedule from a state, the only liveness assumption (R15, R150): an agent whose step stays enabled
from some turn on takes a turn after it. -/
def weaklyFair (σ : Nat → Agent) (s : State) : Prop :=
  ∀ (a : Agent) (n : Nat), (∀ m, n ≤ m → ∃ t, runUnder σ m s = .next t ∧ enabled a t = true) → ∃ m, n ≤ m ∧ σ m = a

/-- The bit in row `r`, column `j` of a bitmap drawn at `(x, y)` gets a write action (R200). -/
abbrev bltDraws (c : Cfg) (x y w h : Int) (r j : Nat) : Prop :=
  (r : Int) < h ∧ (j : Int) < w ∧ 0 ≤ x ∧ x < c.pixelsX ∧ 0 ≤ y ∧ y + r < c.pixelsY ∧
    (y.toNat + r) * c.cols + (x.toNat + j) / 8 < c.fsBytes

/-- The start of a run: the reset state of a configuration, a HOST program, a schedule, the HOST's Source Memory. -/
def startState (c : Cfg) (program : List HostAct) (schedule : List Agent) (sm : List Host.Cell) : State :=
  { State.resetOf c with inbox := program, sched := schedule, sm := sm }

end Sys2Proof.Machine
end

