-- ==== Sys2Proof/Certificates/Slice0/Obligations.lean ====
section
/-! DEFINITION. The statements for the provers, each a proposition about the model that formalises what spec/ says. -/
open Sys2Proof Sys2Proof.Machine

/-! ### Encoding -/

/-- 30_encoding R91, R95, R102: decoding the word of any command gives the command back, every operand field with every
value. -/
def Obligations.DecodeEncodeRoundTrip : Prop :=
  ∀ i : Instr, decode (encode i) = .ok i

/-- 30_encoding R91, R102: a legal word is the word of the command it decodes to; no bit of it is dropped. -/
def Obligations.EncodeDecodeRoundTrip : Prop :=
  ∀ (w : Word) (i : Instr), decode w = .ok i → encode i = w

/-- 30_encoding R102: decoding is total, illegal exactly when `Z /= 0` or `OP` is 0 or 15, and otherwise the row `OP` with
the five fields of R91, each bit range written out. -/
def Obligations.DecodeReadsEveryField : Prop :=
  ∀ w : Word,
    (w.toNat / 4096 ≠ 0 ∨ w.toNat % 16 = 0 ∨ w.toNat % 16 = 15 → ∃ e, decode w = .error e) ∧
    (w.toNat / 4096 = 0 ∧ w.toNat % 16 ≠ 0 ∧ w.toNat % 16 ≠ 15 →
      ∃ i, decode w = .ok i ∧ i.opcode.toNat = w.toNat % 16 ∧ i.fields.rop.toBits.toNat = w.toNat / 16 % 4 ∧
        i.fields.al.toBit = decide (w.toNat / 64 % 2 = 1) ∧ i.fields.nr = decide (w.toNat / 128 % 2 = 1) ∧
        i.fields.ra.toBits.toNat = w.toNat / 256 % 4 ∧ i.fields.rb.toBits.toNat = w.toNat / 1024 % 4)

/-- 30_encoding R97: two words that agree in the fields R96 lists for their command are both accepted and do the same, but
for the word `CMD` stores; and the command lines of R100 write 0 in every ignored field. -/
def Obligations.IgnoredFieldsHaveNoEffect : Prop :=
  (∀ i j : Instr, i.canonical = j.canonical →
    decode (encode j) = .ok j ∧
      ∀ s : State, s.busy = false → ∃ t, exec i s = .next t ∧ exec j s = .next { t with cmd := encode j }) ∧
  ∀ l : HostLine, (∀ v, l ≠ .wr .cmd v) → ∀ w, HostAct.write 0x00 w ∈ l.expand →
    ∃ i : Instr, decode w = .ok i ∧ i.canonical = i

/-- 30_encoding R100: words the spec assembles itself decode to the commands they stand for. A sanity statement. -/
def Obligations.DecodesTheSpecsOwnWords : Prop :=
  decode 0x0091 = .ok (.point { rb := .rc0, ra := .rc0, nr := true, al := .left, rop := .xor }) ∧
  decode 0x0202 = .ok (.line { rb := .rc0, ra := .rc2, nr := false, al := .left, rop := .copy }) ∧
  decode 0x0025 = .ok (.bitblt { rb := .rc0, ra := .rc0, nr := false, al := .left, rop := .and }) ∧
  decode 0x0176 = .ok (.text { rb := .rc0, ra := .rc1, nr := false, al := .right, rop := .or }) ∧
  decode 0x030B = .ok (.copyrect { rb := .rc0, ra := .rc3, nr := false, al := .left, rop := .copy }) ∧
  decode 0x0C0B = .ok (.copyrect { rb := .rc3, ra := .rc0, nr := false, al := .left, rop := .copy }) ∧
  decode 0x000D = .ok (.init Fields.zero) ∧ decode 0x000E = .ok (.clear Fields.zero)

/-! ### The HOST interface -/

/-- 10_state R29, 42_draw R161: when it is the HOST's turn and its next step writes a legal word to `CMD`, the step is the
meaning of the command the word decodes to, in the state whose schedule and HOST list have moved on. -/
def Obligations.StepRunsDecodedCommand : Prop :=
  ∀ (s : State) (w : Word) (i : Instr) (rest : List HostAct),
    s.cfg.wf = true → nextAgent s = .host → s.inbox = .write 0x00 w :: rest → decode w = .ok i →
      step s = exec i { s with inbox := rest, sched := s.sched.tail, turn := s.turn + 1 }

/-- 30_encoding R98: an illegal word is stored and sets `ILL`, and nothing else changes; reset and every launch of INIT
clear `ILL`, and no other step does. -/
def Obligations.IllegalWordIsStoredAndFlagged : Prop :=
  (∀ (s : State) (w : Word), s.busy = false → w.toNat / 4096 ≠ 0 ∨ w.toNat % 16 = 0 ∨ w.toNat % 16 = 15 →
    writeReg s 0x00 w = .next { s with cmd := w, ill := true }) ∧
  (∀ s : State, (applyReset s).ill = false) ∧
  (∀ (s : State) (f : Fields), s.busy = false → ∃ t, exec (.init f) s = .next t ∧ t.ill = false) ∧
  ∀ s t : State, step s = .next t → s.ill = true → t.ill = false → hostInits s ∨ hostResets s

/-- 10_state R35: reads change nothing and return the value of that step; writes to a read-only or reserved index are
ignored; every write is ignored while `BUSY = 1`; otherwise an operand or Rectangle field takes the value, no other
register reads differently, and `CMD` stores the word. -/
def Obligations.HostAccessRule : Prop :=
  (∀ (s : State) (i : BitVec 5) (rest : List HostAct), s.inbox = .read i :: rest →
    hostStep s = .next { s with inbox := rest, reads := s.reads ++ [{ index := i, value := readReg s i }] }) ∧
  (∀ (s : State) (i : BitVec 5) (v : Word), i.toNat ∈ [0x01, 0x02, 0x0B, 0x0C, 0x0D, 0x0E, 0x0F] →
    writeReg s i v = .next s) ∧
  (∀ (s : State) (i : BitVec 5) (v : Word), s.busy = true → writeReg s i v = .next s) ∧
  (∀ (s : State) (i : BitVec 5) (v : Word), s.busy = false →
    i.toNat ∉ [0x00, 0x01, 0x02, 0x0B, 0x0C, 0x0D, 0x0E, 0x0F] →
      ∃ t, writeReg s i v = .next t ∧ readReg t i = v ∧ ∀ j, j ≠ i → readReg t j = readReg s j) ∧
  ∀ (s : State) (w : Word), s.busy = false → ∃ t, writeReg s 0x00 w = .next t ∧ t.cmd = w

/-- 10_state R34: the register each index reads, Rectangle field `j` of `RC[i]` at `0x10 + 4i + j`. -/
def Obligations.RegisterMapReads : Prop :=
  ∀ s : State,
    readReg s 0x00 = s.cmd ∧ readReg s 0x01 = statusWord s ∧ readReg s 0x02 = s.result ∧ readReg s 0x03 = s.x0 ∧
    readReg s 0x04 = s.y0 ∧ readReg s 0x05 = s.x1 ∧ readReg s 0x06 = s.y1 ∧ readReg s 0x07 = s.bw ∧
    readReg s 0x08 = s.bh ∧ readReg s 0x09 = s.ptr ∧ readReg s 0x0A = s.len ∧ readReg s 0x0B = s.hcnt ∧
    readReg s 0x0C = s.vcnt ∧ readReg s 0x0D = s.row ∧ readReg s 0x0E = s.src ∧ readReg s 0x0F = 0 ∧
    ∀ i : RectIx,
      readReg s (BitVec.ofNat 5 (0x10 + 4 * i.toBits.toNat)) = (s.rc.get i).x ∧
      readReg s (BitVec.ofNat 5 (0x10 + 4 * i.toBits.toNat + 1)) = (s.rc.get i).y ∧
      readReg s (BitVec.ofNat 5 (0x10 + 4 * i.toBits.toNat + 2)) = (s.rc.get i).w ∧
      readReg s (BitVec.ofNat 5 (0x10 + 4 * i.toBits.toNat + 3)) = (s.rc.get i).h

/-- 10_state R27, R28, R34: with `BUSY = 0` a HOST write stores its value in the operand register or Rectangle field of its
index and changes nothing else. -/
def Obligations.RegisterWritesStore : Prop :=
  ∀ (s : State) (v : Word), s.busy = false →
    writeReg s 0x03 v = .next { s with x0 := v } ∧ writeReg s 0x04 v = .next { s with y0 := v } ∧
    writeReg s 0x05 v = .next { s with x1 := v } ∧ writeReg s 0x06 v = .next { s with y1 := v } ∧
    writeReg s 0x07 v = .next { s with bw := v } ∧ writeReg s 0x08 v = .next { s with bh := v } ∧
    writeReg s 0x09 v = .next { s with ptr := v } ∧ writeReg s 0x0A v = .next { s with len := v } ∧
    ∀ i : RectIx,
      writeReg s (BitVec.ofNat 5 (0x10 + 4 * i.toBits.toNat)) v =
        .next { s with rc := s.rc.set i { s.rc.get i with x := v } } ∧
      writeReg s (BitVec.ofNat 5 (0x10 + 4 * i.toBits.toNat + 1)) v =
        .next { s with rc := s.rc.set i { s.rc.get i with y := v } } ∧
      writeReg s (BitVec.ofNat 5 (0x10 + 4 * i.toBits.toNat + 2)) v =
        .next { s with rc := s.rc.set i { s.rc.get i with w := v } } ∧
      writeReg s (BitVec.ofNat 5 (0x10 + 4 * i.toBits.toNat + 3)) v =
        .next { s with rc := s.rc.set i { s.rc.get i with h := v } }

/-- 10_state R35, 42_draw R160: while a command runs, a launch of any command is ignored. -/
def Obligations.BusyBlockIgnoresEveryLaunch : Prop :=
  ∀ (i : Instr) (s : State), s.busy = true → exec i s = .next s

/-- 10_state R30 (with R26 for the pins): every field of `STATUS` reflects the state at the moment of the read, and the read
changes nothing but the model's record of it. -/
def Obligations.StatusReflectsTheState : Prop :=
  ∀ s : State,
    (statusWord s).getLsbD 0 = s.busy ∧ (statusWord s).getLsbD 1 = s.vsync ∧ (statusWord s).getLsbD 2 = s.run ∧
    ((statusWord s).toNat / 8 % 4 =
      match s.test with
      | .idle => 0
      | .armed => 1
      | .active => 2
      | .complete => 3) ∧
    (statusWord s).getLsbD 5 = s.ill ∧
    (statusWord s).getLsbD 6 = (s.run && decide (s.hcnt.toNat < s.cfg.hSync)) ∧
    (statusWord s).getLsbD 7 = (s.run && decide (s.vcnt.toNat < s.cfg.vSync)) ∧
    (statusWord s).toNat < 256 ∧
    (∀ v, writeReg s 0x01 v = .next s) ∧
    ∀ rest, s.inbox = .read 0x01 :: rest →
      hostStep s = .next { s with inbox := rest, reads := s.reads ++ [{ index := 0x01, value := statusWord s }] }

/-- 30_encoding R101: `WAIT` reads `STATUS` and goes on exactly when the value has bit 0 clear. -/
def Obligations.WaitPollsUntilIdle : Prop :=
  ∀ (s : State) (rest : List HostAct), s.inbox = .wait :: rest →
    hostStep s = .next { s with
      reads := s.reads ++ [{ index := 0x01, value := statusWord s }]
      inbox := if (statusWord s).getLsbD 0 then .wait :: rest else rest }

/-- 20_memory R63: with no command running, a Source Memory byte the HOST writes is read back at every pointer that wraps to
its address, every other byte reads as before, and the block's own state is untouched. -/
def Obligations.SourceMemoryReadsBack : Prop :=
  (∀ (s : State) (a : Word) (v : Byte), Memory.wf smUnwritten s.sm → s.busy = false →
    ∃ t, smWrite s a v = .next t ∧ t = { s with sm := t.sm } ∧
      ∀ p : Int, smRead t p = if wrap16 p = a.toNat then v else smRead s p) ∧
  ∀ (s : State) (p : Int), smRead s (p + 65536) = smRead s p

/-- 70_reset R274 (the refusal is the model's, log 8): changing a byte of the text of a running TEXT or TEXTA, or a byte of
the bitmap of a running BITBLT with a bit that is drawn, has no meaning; every other Source Memory write is performed. -/
def Obligations.SourceMemoryInUseIsRefused : Prop :=
  (∀ (s : State) (f : Fields) (a : Word) (v : Byte), s.busy = true →
    decode s.cmd = .ok (.text f) ∨ decode s.cmd = .ok (.texta f) →
      (∀ i, i < s.len.toNat → a = BitVec.ofNat 16 (s.ptr.toNat + i) → v ≠ smRead s a.toNat →
        smWrite s a v = .refused (.sourceMemoryInUse a.toNat)) ∧
      ((∀ i, i < s.len.toNat → a ≠ BitVec.ofNat 16 (s.ptr.toNat + i)) →
        smWrite s a v = .next { s with sm := Memory.write smUnwritten s.sm a.toNat v })) ∧
  (∀ (s : State) (f : Fields) (a : Word) (v : Byte), s.busy = true → decode s.cmd = .ok (.bitblt f) →
    (∀ r j, bltDraws s.cfg (s16 s.x0) (s16 s.y0) (s16 s.bw) (s16 s.bh) r j →
      a = BitVec.ofNat 16 (s.ptr.toNat + r * (stride (s16 s.bw)).toNat + j / 8) → v ≠ smRead s a.toNat →
        smWrite s a v = .refused (.sourceMemoryInUse a.toNat)) ∧
    ((∀ r j, bltDraws s.cfg (s16 s.x0) (s16 s.y0) (s16 s.bw) (s16 s.bh) r j →
      a ≠ BitVec.ofNat 16 (s.ptr.toNat + r * (stride (s16 s.bw)).toNat + j / 8)) →
        smWrite s a v = .next { s with sm := Memory.write smUnwritten s.sm a.toNat v })) ∧
  ∀ (s : State) (a : Word) (v : Byte),
    v = smRead s a.toNat ∨ s.busy = false ∨
      (∀ f, decode s.cmd ≠ .ok (.text f) ∧ decode s.cmd ≠ .ok (.texta f) ∧ decode s.cmd ≠ .ok (.bitblt f)) →
        smWrite s a v = .next { s with sm := Memory.write smUnwritten s.sm a.toNat v }

/-! ### Reset and the invariant -/

/-- 10_state R37: the reset input leaves every reset value of the table (the Frame Store is unspecified), and the machine
starts with them, in any configuration. -/
def Obligations.ResetLeavesItsValues : Prop :=
  (∀ (s : State) (rest : List HostAct), s.inbox = .reset :: rest →
    ∃ t, hostStep s = .next t ∧ resetValues t ∧ t.cfg = s.cfg) ∧
  (∀ c : Cfg, resetValues (State.resetOf c)) ∧ resetValues State.reset

/-- 10_state R39: the invariant holds right after reset, in every configuration of this block, `State.reset`'s among them
(log 2 names that one). -/
def Obligations.InvHoldsAtReset : Prop :=
  (∀ c : Cfg, c.wf = true → Inv (State.resetOf c)) ∧ Inv State.reset

/-- 10_state R39: every step of every agent keeps the invariant. -/
def Obligations.StepKeepsInv : Prop :=
  ∀ s t : State, Inv s → step s = .next t → Inv t

/-- 10_state R39, for every configuration of this block, every HOST program, every schedule and every Source Memory. -/
def Obligations.ReachableStatesMeetRule39 : Prop :=
  ∀ (c : Cfg) (program : List HostAct) (schedule : List Agent) (sm : List Host.Cell) (n : Nat) (s : State),
    c.wf = true → Memory.wf smUnwritten sm → (∀ e ∈ sm, e.1 < 65536) →
    Host.Core.run core n (startState c program schedule sm) = .next s →
      s.row.toNat < s.cfg.vl ∧ s.src.toNat = s.row.toNat * s.cfg.cols ∧ s.k ≤ s.cfg.cols ∧
      (s.test = .idle ∨ s.test = .armed → s.k = 0) ∧ (s.test = .complete → s.k = s.cfg.cols) ∧
      s.hcnt.toNat < max s.cfg.hTotal 1 ∧ s.vcnt.toNat < max s.cfg.vTotal 1 ∧
      (s.run = true → 0 < s.cfg.hTotal ∧ 0 < s.cfg.vTotal) ∧ (s.busy = false → s.pend = []) ∧
      (s.vsync = false → s.row = 0 ∧ s.test = .idle)

/-- 60_exceptions R240, 41_transfer R143, 42_draw R162: no agent's step faults, and the one refusal is the HOST's Source
Memory write while a command runs (log 8). -/
def Obligations.StepNeverFaults : Prop :=
  ∀ s : State, Inv s →
    (∃ t, step s = .next t) ∨
      ∃ a v rest, nextAgent s = .host ∧ s.inbox = .smWrite a v :: rest ∧ s.busy = true ∧
        step s = .refused (.sourceMemoryInUse a.toNat)

/-! ### Timing Generator -/

/-- 40_timing R121: `tick`, the frame event before the line event, then the advance; not enabled with `RUN = 0`. -/
def Obligations.TickFollowsItsRule : Prop :=
  ∀ s : State,
    (s.run = false → tgStep s = .next s) ∧
    (s.run = true →
      tgStep s = .next { s with
        vsync := s.vsync || (decide (s.hcnt.toNat = 0) && decide (s.vcnt.toNat = s.cfg.vBp))
        test :=
          if s.hcnt.toNat = s.cfg.hBp ∧ (s.vsync = true ∨ s.hcnt.toNat = 0 ∧ s.vcnt.toNat = s.cfg.vBp) ∧ s.test = .idle
          then .armed else s.test
        k :=
          if s.hcnt.toNat = s.cfg.hBp ∧ (s.vsync = true ∨ s.hcnt.toNat = 0 ∧ s.vcnt.toNat = s.cfg.vBp) ∧ s.test = .idle
          then 0 else s.k
        hcnt := if s.hcnt.toNat + 1 = s.cfg.hTotal then 0 else BitVec.ofNat 16 (s.hcnt.toNat + 1)
        vcnt :=
          if s.hcnt.toNat + 1 = s.cfg.hTotal then
            if s.vcnt.toNat + 1 = s.cfg.vTotal then 0 else BitVec.ofNat 16 (s.vcnt.toNat + 1)
          else s.vcnt })

/-- 40_timing R120, R124: `n` ticks from position (0, 0) lead to tick `n mod H_TOTAL` of line `n / H_TOTAL mod V_TOTAL`, so
a frame period is exactly `V_TOTAL * H_TOTAL` ticks. -/
def Obligations.TicksCountThePosition : Prop :=
  ∀ (s : State) (n : Nat), s.cfg.wf = true → 0 < s.cfg.hTotal → 0 < s.cfg.vTotal → s.hcnt = 0 → s.vcnt = 0 →
    (tick^[n] s).hcnt.toNat = n % s.cfg.hTotal ∧ (tick^[n] s).vcnt.toNat = n / s.cfg.hTotal % s.cfg.vTotal

/-- 10_state R22, 40_timing R128: `vsync` rises only in a `tick` at the frame back-porch event, and then between frames. -/
def Obligations.VsyncRisesOnlyAtTheFrameEvent : Prop :=
  ∀ s t : State, Inv s → step s = .next t → s.vsync = false → t.vsync = true →
    nextAgent s = .tg ∧ s.run = true ∧ s.hcnt.toNat = 0 ∧ s.vcnt.toNat = s.cfg.vBp ∧ s.row = 0 ∧ s.test = .idle

/-- 10_state R22: `vsync` falls only in the `complete` step of the last row, in INIT and in reset. -/
def Obligations.VsyncFallsOnlyAtTheWrap : Prop :=
  ∀ s t : State, step s = .next t → s.vsync = true → t.vsync = false →
    (nextAgent s = .te ∧ s.test = .complete ∧ s.row.toNat + 1 = s.cfg.vl) ∨ hostInits s ∨ hostResets s

/-! ### Transfer Engine -/

/-- 41_transfer R142: `start`. -/
def Obligations.ArmedEngineStarts : Prop :=
  ∀ s : State, s.test = .armed → teStep s = .next { s with test := .active }

/-- 41_transfer R143: `shift` reads the byte in the step that sends it, at an address inside the Frame Store, and `VIDEO`
carries it bit 7 first. -/
def Obligations.ActiveEngineShifts : Prop :=
  (∀ s : State, Inv s → s.test = .active → s.k < s.cfg.cols →
    s.src.toNat + s.k < s.cfg.fsBytes ∧
      teStep s = .next { s with
        vout := s.vout ++ [{ row := s.row.toNat, k := s.k, byte := s.fsByte (s.src.toNat + s.k) }]
        k := s.k + 1 }) ∧
  ∀ b : Byte, videoBits b =
    [b.getLsbD 7, b.getLsbD 6, b.getLsbD 5, b.getLsbD 4, b.getLsbD 3, b.getLsbD 2, b.getLsbD 1, b.getLsbD 0]

/-- 41_transfer R144: `done`. -/
def Obligations.LastByteRaisesComplete : Prop :=
  ∀ s : State, s.test = .active → s.k = s.cfg.cols → teStep s = .next { s with test := .complete }

/-- 41_transfer R145: `complete` goes to the next row, or after the last row wraps to row 0 and clears `vsync`. -/
def Obligations.CompleteAdvancesOrWraps : Prop :=
  ∀ s : State, Inv s → s.test = .complete →
    (s.row.toNat + 1 = s.cfg.vl →
      teStep s = .next { s with row := 0, src := 0, vsync := false, k := 0, test := .idle }) ∧
    (s.row.toNat + 1 ≠ s.cfg.vl →
      ∃ t, teStep s = .next t ∧ t = { s with row := t.row, src := t.src, k := 0, test := .idle } ∧
        t.row.toNat = s.row.toNat + 1 ∧ t.src.toNat = s.src.toNat + s.cfg.cols)

/-- 41_transfer R146: no step of the engine writes the Frame Store, and the only bytes it reads are those of row `ROW`. -/
def Obligations.TransferEngineOnlyReads : Prop :=
  ∀ s t : State, Inv s → teStep s = .next t →
    (∀ a, t.fsByte a = s.fsByte a) ∧
      (t.vout = s.vout ∨ ∃ k, k < s.cfg.cols ∧
        t.vout = s.vout ++ [{ row := s.row.toNat, k := k, byte := s.fsByte (s.row.toNat * s.cfg.cols + k) }])

/-- 41_transfer R148: an armed row, the engine stepping alone, goes out whole and in order in `COLS + 3` steps, and the
cursor goes to the next row or wraps. -/
def Obligations.WholeRowGoesOut : Prop :=
  ∀ (s : State) (rest : List Agent), Inv s → s.test = .armed →
    s.sched = List.replicate (s.cfg.cols + 3) .te ++ rest →
      ∃ t, Host.Core.run core (s.cfg.cols + 3) s = .next t ∧ t.test = .idle ∧ t.k = 0 ∧ t.sched = rest ∧
        (∀ a, t.fsByte a = s.fsByte a) ∧
        t.vout = s.vout ++ (List.range s.cfg.cols).map (fun (k : Nat) =>
          { row := s.row.toNat, k := k, byte := s.fsByte (s.row.toNat * s.cfg.cols + k) }) ∧
        (s.row.toNat + 1 = s.cfg.vl → t.row = 0 ∧ t.src = 0 ∧ t.vsync = false) ∧
        (s.row.toNat + 1 ≠ s.cfg.vl → t.row.toNat = s.row.toNat + 1 ∧ t.vsync = s.vsync)

/-- 41_transfer R147: a line event that finds the engine not idle changes nothing in it; the request is not queued. -/
def Obligations.ArmWhileBusyIsLost : Prop :=
  ∀ s : State, s.run = true → s.test ≠ .idle →
    ∃ t, tgStep s = .next t ∧ t.test = s.test ∧ t.k = s.k ∧ t.row = s.row ∧ t.src = s.src ∧ t.vout = s.vout ∧
      ∀ a, t.fsByte a = s.fsByte a

/-! ### Draw Engine -/

/-- 42_draw R163: `write` performs the first pending action and only that, in a step with `vsync = 1`; while `vsync = 0` the
engine holds. -/
def Obligations.WriteStepPerformsTheFirstAction : Prop :=
  ∀ (s : State) (w : WriteAction) (rest : List WriteAction), s.busy = true → s.pend = w :: rest →
    (s.vsync = false → deStep s = .next s) ∧
    (Inv s → s.vsync = true →
      ∃ t, deStep s = .next t ∧ t = { s with pend := rest, fs := t.fs } ∧
        ∀ a, t.fsByte a = if a = w.address then w.apply (s.fsByte a) else s.fsByte a)

/-- 42_draw R164: `finish` is not gated. -/
def Obligations.FinishClearsBusy : Prop :=
  ∀ s : State, s.busy = true → s.pend = [] → deStep s = .next { s with busy := false }

/-- 20_memory R71, 10_state R21, 45_rowops R226: in one step a Frame Store byte changes only where the Draw Engine performs
the write action at its address with `vsync = 1`, or in INIT, or in reset. -/
def Obligations.PictureChangesOnlyThroughTheGate : Prop :=
  ∀ (s t : State) (a : Nat), Inv s → step s = .next t → t.fsByte a ≠ s.fsByte a →
    (nextAgent s = .de ∧ s.busy = true ∧ s.vsync = true ∧ ∃ w rest, s.pend = w :: rest ∧ w.address = a) ∨
      hostInits s ∨ hostResets s

/-- 42_draw R163, R164, 20_memory R70: with the gate open, the Draw Engine stepping alone performs the whole write list in
order and then clears `BUSY`, in one step more than the list is long. -/
def Obligations.CommandRunsToCompletion : Prop :=
  ∀ (s : State) (rest : List Agent), Inv s → s.busy = true → s.vsync = true →
    s.sched = List.replicate (s.pend.length + 1) .de ++ rest →
      Host.Core.run core (s.pend.length + 1) s =
        .next { paint s.pend s with pend := [], busy := false, sched := rest, turn := s.turn + (s.pend.length + 1) }

/-- 70_reset R263, 42_draw R169: with the timers stopped and the gate closed, a command with pending writes is stuck: no step
of any agent but reset ends it, opens the gate, starts the timers or changes the picture. -/
def Obligations.StuckUntilReset : Prop :=
  ∀ s t : State, Inv s → s.run = false → s.vsync = false → s.busy = true → s.pend ≠ [] → ¬ hostResets s →
    step s = .next t →
      t.run = false ∧ t.vsync = false ∧ t.busy = true ∧ t.pend = s.pend ∧ t.cmd = s.cmd ∧
        ∀ a, t.fsByte a = s.fsByte a

/-- 10_state R27, R35: no command writes an operand register; and while a command runs no step but reset changes an operand
register, a Rectangle register or `CMD`. -/
def Obligations.OperandsOutliveTheCommand : Prop :=
  (∀ (i : Instr) (s t : State), exec i s = .next t →
    t.x0 = s.x0 ∧ t.y0 = s.y0 ∧ t.x1 = s.x1 ∧ t.y1 = s.y1 ∧ t.bw = s.bw ∧ t.bh = s.bh ∧ t.ptr = s.ptr ∧ t.len = s.len) ∧
  ∀ s t : State, s.busy = true → ¬ hostResets s → step s = .next t →
    t.x0 = s.x0 ∧ t.y0 = s.y0 ∧ t.x1 = s.x1 ∧ t.y1 = s.y1 ∧ t.bw = s.bw ∧ t.bh = s.bh ∧ t.ptr = s.ptr ∧
      t.len = s.len ∧ t.rc = s.rc ∧ t.cmd = s.cmd

/-! ### POINT, LINE, RECT, RECTR -/

/-- 43_point R180: POINT's launch. One `BIT` action for a pixel inside the display and the rectangle, none otherwise; nothing
but `CMD`, `PEND` and `BUSY` changes. -/
def Obligations.PointLaunches : Prop :=
  ∀ (f : Fields) (s : State), s.busy = false →
    exec (.point f) s = .next { s with
      cmd := encode (.point f)
      busy := true
      pend :=
        if (0 ≤ s.x0.toInt ∧ s.x0.toInt < s.cfg.pixelsX ∧ 0 ≤ s.y0.toInt ∧ s.y0.toInt < s.cfg.pixelsY) ∧
          (f.nr = true ∨
            (s.rc.get f.ra).x.toInt ≤ s.x0.toInt ∧
            s.x0.toInt < (s.rc.get f.ra).x.toInt + (s.rc.get f.ra).w.toInt ∧
            (s.rc.get f.ra).y.toInt ≤ s.y0.toInt ∧
            s.y0.toInt < (s.rc.get f.ra).y.toInt + (s.rc.get f.ra).h.toInt)
        then [.bit (s.y0.toInt.toNat * s.cfg.cols + s.x0.toInt.toNat / 8) (0x80#8 >>> (s.x0.toInt.toNat % 8))
          (match f.rop with
          | .copy => .set
          | .xor => .tgl
          | .and => .clr
          | .or => .set)]
        else [] }

/-- 43_point R181: what a point leaves at its own pixel under each raster op, and that no other pixel of the Frame Store,
padding included, changes. -/
def Obligations.PointDrawsOnePixel : Prop :=
  ∀ (s : State) (r : Option Rect) (x y : Nat) (rop : RasterOp), Inv s → inside s.cfg x y = true → inrect r x y = true →
    ∀ x' y' : Nat, x' < 8 * s.cfg.cols → y' < s.cfg.vl →
      (paint (pointActs s.cfg r x y rop) s).pixel x' y' =
        if x' = x ∧ y' = y then
          match rop with
          | .copy => true
          | .xor => !s.pixel x y
          | .and => false
          | .or => true
        else s.pixel x' y'

/-- 43_point R182: LINE's launch. Every point of the line is offered to `point`, in order. -/
def Obligations.LineLaunches : Prop :=
  ∀ (f : Fields) (s : State), s.busy = false →
    exec (.line f) s = .next { s with
      cmd := encode (.line f)
      busy := true
      pend := (linePoints s.x0.toInt s.y0.toInt s.x1.toInt s.y1.toInt).flatMap fun p =>
        pointActs s.cfg (if f.nr then none else some (s.rc.get f.ra).value) p.1 p.2 f.rop }

/-- 43_point R183, R184: point `k` of a line, one unit step along the major axis each, the minor axis advanced exactly when
`e >= 0`, a tie taken y-major (a line of one point divides by 0 in neither, `0 / 0` being 0 in Lean); it has
`max(dx, dy) + 1` points, the first `(x0, y0)`, the last `(x1, y1)`, all of them between its end points. -/
def Obligations.LinePointsJoinTheEnds : Prop :=
  ∀ x0 y0 x1 y1 : Int,
    (let dx : Nat := (x1 - x0).natAbs
     let dy : Nat := (y1 - y0).natAbs
     let incx : Int := if x1 < x0 then -1 else 1
     let incy : Int := if y1 < y0 then -1 else 1
     linePoints x0 y0 x1 y1 = (List.range (max dx dy + 1)).map fun (k : Nat) =>
       if dy < dx then (x0 + incx * (k : Int), y0 + incy * (((2 * dy * k + dx) / (2 * dx) : Nat) : Int))
       else (x0 + incx * (((2 * dx * k + dy) / (2 * dy) : Nat) : Int), y0 + incy * (k : Int))) ∧
    (linePoints x0 y0 x1 y1).length = max (x1 - x0).natAbs (y1 - y0).natAbs + 1 ∧
    (linePoints x0 y0 x1 y1).head? = some (x0, y0) ∧ (linePoints x0 y0 x1 y1).getLast? = some (x1, y1) ∧
    ∀ p ∈ linePoints x0 y0 x1 y1,
      min x0 x1 ≤ p.1 ∧ p.1 ≤ max x0 x1 ∧ min y0 y1 ≤ p.2 ∧ p.2 ≤ max y0 y1

/-- 43_point R187 (c): a horizontal line inside the display, drawn with COPY, has `|x1 - x0| + 1` write actions, sets exactly
the pixels between its ends in its row and leaves every other pixel as it was. -/
def Obligations.HorizontalLineSetsItsPixels : Prop :=
  ∀ (s : State) (x0 x1 y : Nat), Inv s → x0 < s.cfg.pixelsX → x1 < s.cfg.pixelsX → y < s.cfg.pixelsY →
    (lineActs s.cfg none x0 y x1 y .copy).length = max x0 x1 - min x0 x1 + 1 ∧
    ∀ x' y' : Nat, x' < 8 * s.cfg.cols → y' < s.cfg.vl →
      (paint (lineActs s.cfg none x0 y x1 y .copy) s).pixel x' y' =
        (s.pixel x' y' || decide (y' = y ∧ min x0 x1 ≤ x' ∧ x' ≤ max x0 x1))

/-- 43_point R185: RECT's launch: the four lines of the border, top, bottom, left, right, with no clip rectangle. -/
def Obligations.RectLaunches : Prop :=
  ∀ (f : Fields) (s : State), s.busy = false →
    exec (.rect f) s = .next { s with
      cmd := encode (.rect f)
      busy := true
      pend := lineActs s.cfg none s.x0.toInt s.y0.toInt s.x1.toInt s.y0.toInt f.rop ++
        lineActs s.cfg none s.x0.toInt s.y1.toInt s.x1.toInt s.y1.toInt f.rop ++
        lineActs s.cfg none s.x0.toInt s.y0.toInt s.x0.toInt s.y1.toInt f.rop ++
        lineActs s.cfg none s.x1.toInt s.y0.toInt s.x1.toInt s.y1.toInt f.rop }

/-- 43_point R186: RECTR's launch: the border of the Rectangle on its own outermost pixels, of the whole display for the null
rectangle. -/
def Obligations.RectrLaunches : Prop :=
  ∀ (f : Fields) (s : State), s.busy = false →
    exec (.rectr f) s = .next { s with
      cmd := encode (.rectr f)
      busy := true
      pend :=
        if f.nr then rectActs s.cfg 0 0 (s.cfg.pixelsX - 1) (s.cfg.pixelsY - 1) f.rop
        else rectActs s.cfg (s.rc.get f.ra).x.toInt (s.rc.get f.ra).y.toInt
          ((s.rc.get f.ra).x.toInt + (s.rc.get f.ra).w.toInt - 1)
          ((s.rc.get f.ra).y.toInt + (s.rc.get f.ra).h.toInt - 1) f.rop }

/-- 43_point R187 (a), (b): a point, a line or a rectangle drawn twice with XOR leaves the Frame Store as it was. -/
def Obligations.XorTwiceRestores : Prop :=
  ∀ s : State, Inv s →
    (∀ r x y, paint (pointActs s.cfg r x y .xor ++ pointActs s.cfg r x y .xor) s = s) ∧
    (∀ r x0 y0 x1 y1, paint (lineActs s.cfg r x0 y0 x1 y1 .xor ++ lineActs s.cfg r x0 y0 x1 y1 .xor) s = s) ∧
    ∀ x0 y0 x1 y1, paint (rectActs s.cfg x0 y0 x1 y1 .xor ++ rectActs s.cfg x0 y0 x1 y1 .xor) s = s

/-! ### BITBLT, TEXT, TEXTA -/

/-- 44_bitblt R202, R203: BITBLT's launch: the blit core over the bitmap at `PTR`, byte-aligned rows of `(w + 7) div 8`
bytes, bit 7 leftmost, read at launch from the Source Memory, whose address wraps. -/
def Obligations.BitbltLaunches : Prop :=
  ∀ (f : Fields) (s : State), s.busy = false →
    exec (.bitblt f) s = .next { s with
      cmd := encode (.bitblt f)
      busy := true
      pend := bltActs s.cfg s.x0.toInt s.y0.toInt s.bw.toInt s.bh.toInt
        (fun (r j : Nat) => (Memory.read smUnwritten s.sm
          (((s.ptr.toNat : Int) + (r : Int) * ((s.bw.toInt + 7) / 8) + (j : Int) / 8) % 65536).toNat).getLsbD (7 - j % 8)) f.rop }

/-- 44_bitblt R200: the write list of the blit core as one expression: no row at or below the bottom edge, no cut at the
right edge, no address at or beyond `FS_BYTES`; nothing for an empty bitmap or an origin outside. -/
def Obligations.BlitWritesTheClippedRows : Prop :=
  ∀ (c : Cfg) (x y w h : Int) (src : Nat → Nat → Bool) (rop : RasterOp),
    bltActs c x y w h src rop =
      if 0 < w ∧ 0 < h ∧ 0 ≤ x ∧ 0 ≤ y ∧ x < c.pixelsX then
        (List.range (min h.toNat (c.pixelsY - y.toNat))).flatMap fun (r : Nat) =>
          (List.range w.toNat).filterMap fun (j : Nat) =>
            if (y.toNat + r) * c.cols + (x.toNat + j) / 8 < c.fsBytes then
              some (.bit ((y.toNat + r) * c.cols + (x.toNat + j) / 8) (0x80#8 >>> ((x.toNat + j) % 8))
                (bltFn rop (src r j)))
            else none
      else []

/-- 44_bitblt R201: the raster op of a bitmap bit: the write action of the table, and the Boolean function of destination and
source it computes on the addressed bits, the others unchanged. -/
def Obligations.BlitRasterOps : Prop :=
  (bltFn .copy true = .set ∧ bltFn .copy false = .clr ∧ bltFn .xor true = .tgl ∧ bltFn .xor false = .keep ∧
    bltFn .and true = .keep ∧ bltFn .and false = .clr ∧ bltFn .or true = .set ∧ bltFn .or false = .keep) ∧
  ∀ (rop : RasterOp) (bit : Bool) (m v : Byte) (i : Nat), i < 8 →
    ((bltFn rop bit).apply m v).getLsbD i =
      if m.getLsbD i then
        match rop with
        | .copy => bit
        | .xor => xor (v.getLsbD i) bit
        | .and => v.getLsbD i && bit
        | .or => v.getLsbD i || bit
      else v.getLsbD i

/-- 44_bitblt R205: TEXT's launch: where the text core starts, how many glyph rows it draws and where it stops, for the null
rectangle and for `RC[RA]`, LEFT and RIGHT. -/
def Obligations.TextLaunches : Prop :=
  ∀ (f : Fields) (s : State), s.busy = false →
    exec (.text f) s = .next { s with
      cmd := encode (.text f)
      busy := true
      pend :=
        match f.nr, f.al with
        | true, .left => textRun s.cfg 0 8 s.cfg.pixelsX f.rop (textOperand s) 0
        | true, .right =>
          textRun s.cfg 0 8 s.cfg.pixelsX f.rop (textOperand s) (s.cfg.pixelsX - (0 + 8 * s.len.toNat))
        | false, .left =>
          textRun s.cfg (s.rc.get f.ra).y.toInt (min 8 (max 0 (s.rc.get f.ra).h.toInt))
            (min s.cfg.pixelsX ((s.rc.get f.ra).x.toInt + (s.rc.get f.ra).w.toInt)) f.rop (textOperand s)
            (s.rc.get f.ra).x.toInt
        | false, .right =>
          textRun s.cfg (s.rc.get f.ra).y.toInt (min 8 (max 0 (s.rc.get f.ra).h.toInt)) s.cfg.pixelsX f.rop
            (textOperand s) (s.cfg.pixelsX - ((s.rc.get f.ra).x.toInt + 8 * s.len.toNat)) }

/-- 44_bitblt R206: TEXTA's launch: LEFT starts at `X0`, RIGHT at `PIXELS_X - (x + 8 n)` with every character counted; the
text is the `LEN` bytes of the Source Memory from `PTR`. -/
def Obligations.TextaLaunches : Prop :=
  (∀ (f : Fields) (s : State), s.busy = false →
    exec (.texta f) s = .next { s with
      cmd := encode (.texta f)
      busy := true
      pend := textRun s.cfg s.y0.toInt 8 s.cfg.pixelsX f.rop (textOperand s)
        (match f.al with
        | .left => s.x0.toInt
        | .right => s.cfg.pixelsX - (s.x0.toInt + 8 * s.len.toNat)) }) ∧
  ∀ s : State, textOperand s =
    (List.range s.len.toNat).map fun (i : Nat) => Memory.read smUnwritten s.sm ((s.ptr.toNat + i) % 65536)

/-- 44_bitblt R204: characters without a glyph are skipped, the cursor not advanced, wherever they stand in the text. -/
def Obligations.TextSkipsUnprintable : Prop :=
  ∀ (c : Cfg) (y gh xlim : Int) (rop : RasterOp) (chars : List Byte) (xc : Int),
    textRun c y gh xlim rop chars xc = textRun c y gh xlim rop (chars.filter (printable c)) xc

/-- 44_bitblt R204: a run of printable characters draws one glyph cell per character, 8 pixels apart, for exactly the
characters before the first one that would pass `xlim`; bit `(r, j)` of a cell is bit `7 - j` of row `r` of the glyph. -/
def Obligations.TextDrawsTheCellsThatFit : Prop :=
  ∀ (c : Cfg) (y gh xlim : Int) (rop : RasterOp) (chars : List Byte) (xc : Int),
    (∀ ch ∈ chars, printable c ch = true) →
      textRun c y gh xlim rop chars xc =
        (List.range (min chars.length ((xlim - xc) / 8).toNat)).flatMap fun (i : Nat) =>
          bltActs c (xc + 8 * (i : Int)) y 8 gh
            (fun (r j : Nat) =>
              ((c.font.getD ((chars.getD i 0).toNat - c.fontOffset) []).getD r 0x00).getLsbD (7 - j)) rop

/-- 20_memory R77: POINT, LINE, RECT, RECTR, TEXT, TEXTA and the row commands never write a padding byte. -/
def Obligations.OnlyBitbltAndClearReachPadding : Prop :=
  ∀ c : Cfg, c.wf = true → ∀ w : WriteAction,
    ((∃ r x y rop, w ∈ pointActs c r x y rop) ∨ (∃ r x0 y0 x1 y1 rop, w ∈ lineActs c r x0 y0 x1 y1 rop) ∨
      (∃ x0 y0 x1 y1 rop, w ∈ rectActs c x0 y0 x1 y1 rop) ∨ (∃ r rop, w ∈ rectrActs c r rop) ∨
      (∃ r chars al rop, w ∈ textActs c r chars al rop) ∨ (∃ x y chars rop al, w ∈ textaActs c x y chars rop al) ∨
      (∃ y n g, w ∈ rowsActs c y n g)) → w.address % c.cols < c.hb

/-! ### Row commands, Rectangle commands, lifecycle commands -/

/-- 45_rowops R221, R222, R223, with the row core of R220: the launches of INVLINE, INVTLINE and CLRTLINE: the visible bytes
of the rows of the band that are inside the display, top to bottom, left to right. -/
def Obligations.RowCommandsLaunch : Prop :=
  ∀ (f : Fields) (s : State), s.busy = false →
    exec (.invline f) s = .next { s with
      cmd := encode (.invline f), busy := true, pend := (List.range 1).flatMap fun (i : Nat) =>
        if 0 ≤ s.y0.toInt + i ∧ s.y0.toInt + i < s.cfg.pixelsY then
          (List.range s.cfg.hb).map fun k => .byte ((s.y0.toInt + i).toNat * s.cfg.cols + k) .inv
        else [] } ∧
    exec (.invtline f) s = .next { s with
      cmd := encode (.invtline f), busy := true, pend := (List.range 8).flatMap fun (i : Nat) =>
        if 0 ≤ s.y0.toInt + i ∧ s.y0.toInt + i < s.cfg.pixelsY then
          (List.range s.cfg.hb).map fun k => .byte ((s.y0.toInt + i).toNat * s.cfg.cols + k) .inv
        else [] } ∧
    exec (.clrtline f) s = .next { s with
      cmd := encode (.clrtline f), busy := true, pend := (List.range 8).flatMap fun (i : Nat) =>
        if 0 ≤ s.y0.toInt + i ∧ s.y0.toInt + i < s.cfg.pixelsY then
          (List.range s.cfg.hb).map fun k => .byte ((s.y0.toInt + i).toNat * s.cfg.cols + k) .zero
        else [] }

/-- 45_rowops R220: a band of `n` rows complements or zeroes exactly its visible bytes inside the display; every other byte
of the Frame Store, padding included, is as before. -/
def Obligations.RowBandChangesItsVisibleBytes : Prop :=
  ∀ (s : State) (y : Int) (n : Nat) (g : ByteFn) (r k : Nat), Inv s → r < s.cfg.vl → k < s.cfg.cols →
    (paint (rowsActs s.cfg y n g) s).fsByte (r * s.cfg.cols + k) =
      if k < s.cfg.hb ∧ y ≤ r ∧ (r : Int) < y + n then
        match g with
        | .inv => ~~~ s.fsByte (r * s.cfg.cols + k)
        | .zero => 0x00
      else s.fsByte (r * s.cfg.cols + k)

/-- 45_rowops R224: COPYRECT copies the four fields of `RC[RB]` into `RC[RA]` inside the launch step; nothing but `CMD` and
that register changes. -/
def Obligations.CopyrectCopies : Prop :=
  ∀ (f : Fields) (s : State), s.busy = false →
    ∃ t, exec (.copyrect f) s = .next t ∧ t = { s with cmd := encode (.copyrect f), rc := t.rc } ∧
      ∀ i, t.rc.get i = if i = f.ra then s.rc.get f.rb else s.rc.get i

/-- 45_rowops R225: GETCRECT loads the Rectangle of the whole display inside the launch step; a command given that Rectangle
behaves as with the null rectangle. -/
def Obligations.GetcrectLoadsTheDisplay : Prop :=
  ∀ (f : Fields) (s : State), s.cfg.wf = true → s.busy = false →
    ∃ t, exec (.getcrect f) s = .next t ∧ t = { s with cmd := encode (.getcrect f), rc := t.rc } ∧
      (∀ i, i ≠ f.ra → t.rc.get i = s.rc.get i) ∧
      (t.rc.get f.ra).value = { x := 0, y := 0, w := s.cfg.pixelsX, h := s.cfg.pixelsY } ∧
      (∀ x y rop, pointActs s.cfg (some (t.rc.get f.ra).value) x y rop = pointActs s.cfg none x y rop) ∧
      (∀ x0 y0 x1 y1 rop,
        lineActs s.cfg (some (t.rc.get f.ra).value) x0 y0 x1 y1 rop = lineActs s.cfg none x0 y0 x1 y1 rop) ∧
      (∀ rop, rectrActs s.cfg (some (t.rc.get f.ra).value) rop = rectrActs s.cfg none rop) ∧
      ∀ chars al rop, textActs s.cfg (some (t.rc.get f.ra).value) chars al rop = textActs s.cfg none chars al rop

/-- 45_rowops R226: INIT, inside the launch step: the timers stop and restart at (0, 0), the transfer is abandoned, every byte
reads 0x00, `ILL` is cleared, `RESULT` and `RUN` say whether a period is 0; operand and Rectangle registers and everything
else keep their value. While a command runs INIT is ignored. -/
def Obligations.InitRestartsTheBlock : Prop :=
  (∀ (f : Fields) (s : State), s.busy = true → exec (.init f) s = .next s) ∧
  ∀ (f : Fields) (s : State), s.busy = false →
    ∃ t, exec (.init f) s = .next t ∧
      t = { s with
        cmd := encode (.init f), fs := t.fs, fsFill := t.fsFill, run := t.run, result := t.result
        hcnt := 0, vcnt := 0, vsync := false, test := .idle, k := 0, row := 0, src := 0, ill := false } ∧
      (∀ a, t.fsByte a = 0x00) ∧
      (s.cfg.hTotal = 0 ∨ s.cfg.vTotal = 0 → t.result = 1 ∧ t.run = false) ∧
      (s.cfg.hTotal ≠ 0 ∧ s.cfg.vTotal ≠ 0 → t.result = 0 ∧ t.run = true)

/-- 45_rowops R227: CLEAR's launch: one gated write of 0x00 per byte, padding included, in ascending order, after which every
byte reads 0x00. -/
def Obligations.ClearZeroesEveryByte : Prop :=
  (∀ (f : Fields) (s : State), s.busy = false →
    exec (.clear f) s = .next { s with
      cmd := encode (.clear f)
      busy := true
      pend := (List.range (s.cfg.vl * (s.cfg.hb + s.cfg.pad))).map fun a => .byte a .zero }) ∧
  ∀ (s : State) (a : Nat), Inv s → a < s.cfg.fsBytes → (paint (clearActs s.cfg) s).fsByte a = 0x00

/-! ### Fairness -/

/-- 00_scope R15, 41_transfer R150, 42_draw R164: a turn of an agent with no enabled step changes nothing; and under every
weakly fair schedule, whatever the HOST does but change its Source Memory (log 8), a row in transfer ends and a command with
nothing pending finishes. -/
def Obligations.WeaklyFairSchedulesFinish : Prop :=
  (∀ (a : Agent) (s : State), enabled a s = false → agentStep a s = .next s) ∧
  ∀ (s : State) (σ : Nat → Agent), Inv s → (∀ a v, HostAct.smWrite a v ∉ s.inbox) → weaklyFair σ s →
    (∃ n t, runUnder σ n s = .next t ∧ t.test = .idle) ∧
      (s.pend = [] → ∃ n t, runUnder σ n s = .next t ∧ t.busy = false)
end

