-- ==== Sys2Proof/Laws/State.lean ====
section
/-! SUPPORT. One lemma per field per state update, each true by rfl: what a named update writes and what it leaves. -/
namespace Sys2Proof.Machine

/-! ### fsPut -/

@[simp] theorem fsPut_cfg (s : State) (a : Nat) (v : Byte) : (s.fsPut a v).cfg = s.cfg := rfl
@[simp] theorem fsPut_fs (s : State) (a : Nat) (v : Byte) : (s.fsPut a v).fs = Memory.write s.fsUnwritten s.fs a v := rfl
@[simp] theorem fsPut_fsFill (s : State) (a : Nat) (v : Byte) : (s.fsPut a v).fsFill = s.fsFill := rfl
@[simp] theorem fsPut_vsync (s : State) (a : Nat) (v : Byte) : (s.fsPut a v).vsync = s.vsync := rfl
@[simp] theorem fsPut_row (s : State) (a : Nat) (v : Byte) : (s.fsPut a v).row = s.row := rfl
@[simp] theorem fsPut_src (s : State) (a : Nat) (v : Byte) : (s.fsPut a v).src = s.src := rfl
@[simp] theorem fsPut_test (s : State) (a : Nat) (v : Byte) : (s.fsPut a v).test = s.test := rfl
@[simp] theorem fsPut_k (s : State) (a : Nat) (v : Byte) : (s.fsPut a v).k = s.k := rfl
@[simp] theorem fsPut_run (s : State) (a : Nat) (v : Byte) : (s.fsPut a v).run = s.run := rfl
@[simp] theorem fsPut_hcnt (s : State) (a : Nat) (v : Byte) : (s.fsPut a v).hcnt = s.hcnt := rfl
@[simp] theorem fsPut_vcnt (s : State) (a : Nat) (v : Byte) : (s.fsPut a v).vcnt = s.vcnt := rfl
@[simp] theorem fsPut_cmd (s : State) (a : Nat) (v : Byte) : (s.fsPut a v).cmd = s.cmd := rfl
@[simp] theorem fsPut_result (s : State) (a : Nat) (v : Byte) : (s.fsPut a v).result = s.result := rfl
@[simp] theorem fsPut_x0 (s : State) (a : Nat) (v : Byte) : (s.fsPut a v).x0 = s.x0 := rfl
@[simp] theorem fsPut_y0 (s : State) (a : Nat) (v : Byte) : (s.fsPut a v).y0 = s.y0 := rfl
@[simp] theorem fsPut_x1 (s : State) (a : Nat) (v : Byte) : (s.fsPut a v).x1 = s.x1 := rfl
@[simp] theorem fsPut_y1 (s : State) (a : Nat) (v : Byte) : (s.fsPut a v).y1 = s.y1 := rfl
@[simp] theorem fsPut_bw (s : State) (a : Nat) (v : Byte) : (s.fsPut a v).bw = s.bw := rfl
@[simp] theorem fsPut_bh (s : State) (a : Nat) (v : Byte) : (s.fsPut a v).bh = s.bh := rfl
@[simp] theorem fsPut_ptr (s : State) (a : Nat) (v : Byte) : (s.fsPut a v).ptr = s.ptr := rfl
@[simp] theorem fsPut_len (s : State) (a : Nat) (v : Byte) : (s.fsPut a v).len = s.len := rfl
@[simp] theorem fsPut_rc (s : State) (a : Nat) (v : Byte) : (s.fsPut a v).rc = s.rc := rfl
@[simp] theorem fsPut_busy (s : State) (a : Nat) (v : Byte) : (s.fsPut a v).busy = s.busy := rfl
@[simp] theorem fsPut_pend (s : State) (a : Nat) (v : Byte) : (s.fsPut a v).pend = s.pend := rfl
@[simp] theorem fsPut_ill (s : State) (a : Nat) (v : Byte) : (s.fsPut a v).ill = s.ill := rfl
@[simp] theorem fsPut_vout (s : State) (a : Nat) (v : Byte) : (s.fsPut a v).vout = s.vout := rfl
@[simp] theorem fsPut_sm (s : State) (a : Nat) (v : Byte) : (s.fsPut a v).sm = s.sm := rfl
@[simp] theorem fsPut_inbox (s : State) (a : Nat) (v : Byte) : (s.fsPut a v).inbox = s.inbox := rfl
@[simp] theorem fsPut_reads (s : State) (a : Nat) (v : Byte) : (s.fsPut a v).reads = s.reads := rfl
@[simp] theorem fsPut_sched (s : State) (a : Nat) (v : Byte) : (s.fsPut a v).sched = s.sched := rfl
@[simp] theorem fsPut_turn (s : State) (a : Nat) (v : Byte) : (s.fsPut a v).turn = s.turn := rfl
@[simp] theorem fsPut_resets (s : State) (a : Nat) (v : Byte) : (s.fsPut a v).resets = s.resets := rfl

/-! ### fsZero -/

@[simp] theorem fsZero_cfg (s : State) : (s.fsZero).cfg = s.cfg := rfl
@[simp] theorem fsZero_fs (s : State) : (s.fsZero).fs = [] := rfl
@[simp] theorem fsZero_fsFill (s : State) : (s.fsZero).fsFill = .zeroed := rfl
@[simp] theorem fsZero_vsync (s : State) : (s.fsZero).vsync = s.vsync := rfl
@[simp] theorem fsZero_row (s : State) : (s.fsZero).row = s.row := rfl
@[simp] theorem fsZero_src (s : State) : (s.fsZero).src = s.src := rfl
@[simp] theorem fsZero_test (s : State) : (s.fsZero).test = s.test := rfl
@[simp] theorem fsZero_k (s : State) : (s.fsZero).k = s.k := rfl
@[simp] theorem fsZero_run (s : State) : (s.fsZero).run = s.run := rfl
@[simp] theorem fsZero_hcnt (s : State) : (s.fsZero).hcnt = s.hcnt := rfl
@[simp] theorem fsZero_vcnt (s : State) : (s.fsZero).vcnt = s.vcnt := rfl
@[simp] theorem fsZero_cmd (s : State) : (s.fsZero).cmd = s.cmd := rfl
@[simp] theorem fsZero_result (s : State) : (s.fsZero).result = s.result := rfl
@[simp] theorem fsZero_x0 (s : State) : (s.fsZero).x0 = s.x0 := rfl
@[simp] theorem fsZero_y0 (s : State) : (s.fsZero).y0 = s.y0 := rfl
@[simp] theorem fsZero_x1 (s : State) : (s.fsZero).x1 = s.x1 := rfl
@[simp] theorem fsZero_y1 (s : State) : (s.fsZero).y1 = s.y1 := rfl
@[simp] theorem fsZero_bw (s : State) : (s.fsZero).bw = s.bw := rfl
@[simp] theorem fsZero_bh (s : State) : (s.fsZero).bh = s.bh := rfl
@[simp] theorem fsZero_ptr (s : State) : (s.fsZero).ptr = s.ptr := rfl
@[simp] theorem fsZero_len (s : State) : (s.fsZero).len = s.len := rfl
@[simp] theorem fsZero_rc (s : State) : (s.fsZero).rc = s.rc := rfl
@[simp] theorem fsZero_busy (s : State) : (s.fsZero).busy = s.busy := rfl
@[simp] theorem fsZero_pend (s : State) : (s.fsZero).pend = s.pend := rfl
@[simp] theorem fsZero_ill (s : State) : (s.fsZero).ill = s.ill := rfl
@[simp] theorem fsZero_vout (s : State) : (s.fsZero).vout = s.vout := rfl
@[simp] theorem fsZero_sm (s : State) : (s.fsZero).sm = s.sm := rfl
@[simp] theorem fsZero_inbox (s : State) : (s.fsZero).inbox = s.inbox := rfl
@[simp] theorem fsZero_reads (s : State) : (s.fsZero).reads = s.reads := rfl
@[simp] theorem fsZero_sched (s : State) : (s.fsZero).sched = s.sched := rfl
@[simp] theorem fsZero_turn (s : State) : (s.fsZero).turn = s.turn := rfl
@[simp] theorem fsZero_resets (s : State) : (s.fsZero).resets = s.resets := rfl

/-! ### takeTurn -/

@[simp] theorem takeTurn_cfg (s : State) : (takeTurn s).cfg = s.cfg := rfl
@[simp] theorem takeTurn_fs (s : State) : (takeTurn s).fs = s.fs := rfl
@[simp] theorem takeTurn_fsFill (s : State) : (takeTurn s).fsFill = s.fsFill := rfl
@[simp] theorem takeTurn_vsync (s : State) : (takeTurn s).vsync = s.vsync := rfl
@[simp] theorem takeTurn_row (s : State) : (takeTurn s).row = s.row := rfl
@[simp] theorem takeTurn_src (s : State) : (takeTurn s).src = s.src := rfl
@[simp] theorem takeTurn_test (s : State) : (takeTurn s).test = s.test := rfl
@[simp] theorem takeTurn_k (s : State) : (takeTurn s).k = s.k := rfl
@[simp] theorem takeTurn_run (s : State) : (takeTurn s).run = s.run := rfl
@[simp] theorem takeTurn_hcnt (s : State) : (takeTurn s).hcnt = s.hcnt := rfl
@[simp] theorem takeTurn_vcnt (s : State) : (takeTurn s).vcnt = s.vcnt := rfl
@[simp] theorem takeTurn_cmd (s : State) : (takeTurn s).cmd = s.cmd := rfl
@[simp] theorem takeTurn_result (s : State) : (takeTurn s).result = s.result := rfl
@[simp] theorem takeTurn_x0 (s : State) : (takeTurn s).x0 = s.x0 := rfl
@[simp] theorem takeTurn_y0 (s : State) : (takeTurn s).y0 = s.y0 := rfl
@[simp] theorem takeTurn_x1 (s : State) : (takeTurn s).x1 = s.x1 := rfl
@[simp] theorem takeTurn_y1 (s : State) : (takeTurn s).y1 = s.y1 := rfl
@[simp] theorem takeTurn_bw (s : State) : (takeTurn s).bw = s.bw := rfl
@[simp] theorem takeTurn_bh (s : State) : (takeTurn s).bh = s.bh := rfl
@[simp] theorem takeTurn_ptr (s : State) : (takeTurn s).ptr = s.ptr := rfl
@[simp] theorem takeTurn_len (s : State) : (takeTurn s).len = s.len := rfl
@[simp] theorem takeTurn_rc (s : State) : (takeTurn s).rc = s.rc := rfl
@[simp] theorem takeTurn_busy (s : State) : (takeTurn s).busy = s.busy := rfl
@[simp] theorem takeTurn_pend (s : State) : (takeTurn s).pend = s.pend := rfl
@[simp] theorem takeTurn_ill (s : State) : (takeTurn s).ill = s.ill := rfl
@[simp] theorem takeTurn_vout (s : State) : (takeTurn s).vout = s.vout := rfl
@[simp] theorem takeTurn_sm (s : State) : (takeTurn s).sm = s.sm := rfl
@[simp] theorem takeTurn_inbox (s : State) : (takeTurn s).inbox = s.inbox := rfl
@[simp] theorem takeTurn_reads (s : State) : (takeTurn s).reads = s.reads := rfl
@[simp] theorem takeTurn_sched (s : State) : (takeTurn s).sched = s.sched.tail := rfl
@[simp] theorem takeTurn_turn (s : State) : (takeTurn s).turn = s.turn + 1 := rfl
@[simp] theorem takeTurn_resets (s : State) : (takeTurn s).resets = s.resets := rfl

/-! ### raiseFrame -/

@[simp] theorem raiseFrame_cfg (s : State) : (raiseFrame s).cfg = s.cfg := rfl
@[simp] theorem raiseFrame_fs (s : State) : (raiseFrame s).fs = s.fs := rfl
@[simp] theorem raiseFrame_fsFill (s : State) : (raiseFrame s).fsFill = s.fsFill := rfl
@[simp] theorem raiseFrame_vsync (s : State) : (raiseFrame s).vsync = (s.vsync || frameEvent s) := rfl
@[simp] theorem raiseFrame_row (s : State) : (raiseFrame s).row = s.row := rfl
@[simp] theorem raiseFrame_src (s : State) : (raiseFrame s).src = s.src := rfl
@[simp] theorem raiseFrame_test (s : State) : (raiseFrame s).test = s.test := rfl
@[simp] theorem raiseFrame_k (s : State) : (raiseFrame s).k = s.k := rfl
@[simp] theorem raiseFrame_run (s : State) : (raiseFrame s).run = s.run := rfl
@[simp] theorem raiseFrame_hcnt (s : State) : (raiseFrame s).hcnt = s.hcnt := rfl
@[simp] theorem raiseFrame_vcnt (s : State) : (raiseFrame s).vcnt = s.vcnt := rfl
@[simp] theorem raiseFrame_cmd (s : State) : (raiseFrame s).cmd = s.cmd := rfl
@[simp] theorem raiseFrame_result (s : State) : (raiseFrame s).result = s.result := rfl
@[simp] theorem raiseFrame_x0 (s : State) : (raiseFrame s).x0 = s.x0 := rfl
@[simp] theorem raiseFrame_y0 (s : State) : (raiseFrame s).y0 = s.y0 := rfl
@[simp] theorem raiseFrame_x1 (s : State) : (raiseFrame s).x1 = s.x1 := rfl
@[simp] theorem raiseFrame_y1 (s : State) : (raiseFrame s).y1 = s.y1 := rfl
@[simp] theorem raiseFrame_bw (s : State) : (raiseFrame s).bw = s.bw := rfl
@[simp] theorem raiseFrame_bh (s : State) : (raiseFrame s).bh = s.bh := rfl
@[simp] theorem raiseFrame_ptr (s : State) : (raiseFrame s).ptr = s.ptr := rfl
@[simp] theorem raiseFrame_len (s : State) : (raiseFrame s).len = s.len := rfl
@[simp] theorem raiseFrame_rc (s : State) : (raiseFrame s).rc = s.rc := rfl
@[simp] theorem raiseFrame_busy (s : State) : (raiseFrame s).busy = s.busy := rfl
@[simp] theorem raiseFrame_pend (s : State) : (raiseFrame s).pend = s.pend := rfl
@[simp] theorem raiseFrame_ill (s : State) : (raiseFrame s).ill = s.ill := rfl
@[simp] theorem raiseFrame_vout (s : State) : (raiseFrame s).vout = s.vout := rfl
@[simp] theorem raiseFrame_sm (s : State) : (raiseFrame s).sm = s.sm := rfl
@[simp] theorem raiseFrame_inbox (s : State) : (raiseFrame s).inbox = s.inbox := rfl
@[simp] theorem raiseFrame_reads (s : State) : (raiseFrame s).reads = s.reads := rfl
@[simp] theorem raiseFrame_sched (s : State) : (raiseFrame s).sched = s.sched := rfl
@[simp] theorem raiseFrame_turn (s : State) : (raiseFrame s).turn = s.turn := rfl
@[simp] theorem raiseFrame_resets (s : State) : (raiseFrame s).resets = s.resets := rfl

/-! ### advancePosition -/

@[simp] theorem advancePosition_cfg (s : State) : (advancePosition s).cfg = s.cfg := rfl
@[simp] theorem advancePosition_fs (s : State) : (advancePosition s).fs = s.fs := rfl
@[simp] theorem advancePosition_fsFill (s : State) : (advancePosition s).fsFill = s.fsFill := rfl
@[simp] theorem advancePosition_vsync (s : State) : (advancePosition s).vsync = s.vsync := rfl
@[simp] theorem advancePosition_row (s : State) : (advancePosition s).row = s.row := rfl
@[simp] theorem advancePosition_src (s : State) : (advancePosition s).src = s.src := rfl
@[simp] theorem advancePosition_test (s : State) : (advancePosition s).test = s.test := rfl
@[simp] theorem advancePosition_k (s : State) : (advancePosition s).k = s.k := rfl
@[simp] theorem advancePosition_run (s : State) : (advancePosition s).run = s.run := rfl
@[simp] theorem advancePosition_hcnt (s : State) : (advancePosition s).hcnt = nextCount s.hcnt s.cfg.hTotal := rfl
@[simp] theorem advancePosition_vcnt (s : State) : (advancePosition s).vcnt = if s.hcnt.toNat + 1 = s.cfg.hTotal then nextCount s.vcnt s.cfg.vTotal else s.vcnt := rfl
@[simp] theorem advancePosition_cmd (s : State) : (advancePosition s).cmd = s.cmd := rfl
@[simp] theorem advancePosition_result (s : State) : (advancePosition s).result = s.result := rfl
@[simp] theorem advancePosition_x0 (s : State) : (advancePosition s).x0 = s.x0 := rfl
@[simp] theorem advancePosition_y0 (s : State) : (advancePosition s).y0 = s.y0 := rfl
@[simp] theorem advancePosition_x1 (s : State) : (advancePosition s).x1 = s.x1 := rfl
@[simp] theorem advancePosition_y1 (s : State) : (advancePosition s).y1 = s.y1 := rfl
@[simp] theorem advancePosition_bw (s : State) : (advancePosition s).bw = s.bw := rfl
@[simp] theorem advancePosition_bh (s : State) : (advancePosition s).bh = s.bh := rfl
@[simp] theorem advancePosition_ptr (s : State) : (advancePosition s).ptr = s.ptr := rfl
@[simp] theorem advancePosition_len (s : State) : (advancePosition s).len = s.len := rfl
@[simp] theorem advancePosition_rc (s : State) : (advancePosition s).rc = s.rc := rfl
@[simp] theorem advancePosition_busy (s : State) : (advancePosition s).busy = s.busy := rfl
@[simp] theorem advancePosition_pend (s : State) : (advancePosition s).pend = s.pend := rfl
@[simp] theorem advancePosition_ill (s : State) : (advancePosition s).ill = s.ill := rfl
@[simp] theorem advancePosition_vout (s : State) : (advancePosition s).vout = s.vout := rfl
@[simp] theorem advancePosition_sm (s : State) : (advancePosition s).sm = s.sm := rfl
@[simp] theorem advancePosition_inbox (s : State) : (advancePosition s).inbox = s.inbox := rfl
@[simp] theorem advancePosition_reads (s : State) : (advancePosition s).reads = s.reads := rfl
@[simp] theorem advancePosition_sched (s : State) : (advancePosition s).sched = s.sched := rfl
@[simp] theorem advancePosition_turn (s : State) : (advancePosition s).turn = s.turn := rfl
@[simp] theorem advancePosition_resets (s : State) : (advancePosition s).resets = s.resets := rfl

/-! ### teStart -/

@[simp] theorem teStart_cfg (s : State) : (teStart s).cfg = s.cfg := rfl
@[simp] theorem teStart_fs (s : State) : (teStart s).fs = s.fs := rfl
@[simp] theorem teStart_fsFill (s : State) : (teStart s).fsFill = s.fsFill := rfl
@[simp] theorem teStart_vsync (s : State) : (teStart s).vsync = s.vsync := rfl
@[simp] theorem teStart_row (s : State) : (teStart s).row = s.row := rfl
@[simp] theorem teStart_src (s : State) : (teStart s).src = s.src := rfl
@[simp] theorem teStart_test (s : State) : (teStart s).test = .active := rfl
@[simp] theorem teStart_k (s : State) : (teStart s).k = s.k := rfl
@[simp] theorem teStart_run (s : State) : (teStart s).run = s.run := rfl
@[simp] theorem teStart_hcnt (s : State) : (teStart s).hcnt = s.hcnt := rfl
@[simp] theorem teStart_vcnt (s : State) : (teStart s).vcnt = s.vcnt := rfl
@[simp] theorem teStart_cmd (s : State) : (teStart s).cmd = s.cmd := rfl
@[simp] theorem teStart_result (s : State) : (teStart s).result = s.result := rfl
@[simp] theorem teStart_x0 (s : State) : (teStart s).x0 = s.x0 := rfl
@[simp] theorem teStart_y0 (s : State) : (teStart s).y0 = s.y0 := rfl
@[simp] theorem teStart_x1 (s : State) : (teStart s).x1 = s.x1 := rfl
@[simp] theorem teStart_y1 (s : State) : (teStart s).y1 = s.y1 := rfl
@[simp] theorem teStart_bw (s : State) : (teStart s).bw = s.bw := rfl
@[simp] theorem teStart_bh (s : State) : (teStart s).bh = s.bh := rfl
@[simp] theorem teStart_ptr (s : State) : (teStart s).ptr = s.ptr := rfl
@[simp] theorem teStart_len (s : State) : (teStart s).len = s.len := rfl
@[simp] theorem teStart_rc (s : State) : (teStart s).rc = s.rc := rfl
@[simp] theorem teStart_busy (s : State) : (teStart s).busy = s.busy := rfl
@[simp] theorem teStart_pend (s : State) : (teStart s).pend = s.pend := rfl
@[simp] theorem teStart_ill (s : State) : (teStart s).ill = s.ill := rfl
@[simp] theorem teStart_vout (s : State) : (teStart s).vout = s.vout := rfl
@[simp] theorem teStart_sm (s : State) : (teStart s).sm = s.sm := rfl
@[simp] theorem teStart_inbox (s : State) : (teStart s).inbox = s.inbox := rfl
@[simp] theorem teStart_reads (s : State) : (teStart s).reads = s.reads := rfl
@[simp] theorem teStart_sched (s : State) : (teStart s).sched = s.sched := rfl
@[simp] theorem teStart_turn (s : State) : (teStart s).turn = s.turn := rfl
@[simp] theorem teStart_resets (s : State) : (teStart s).resets = s.resets := rfl

/-! ### teDone -/

@[simp] theorem teDone_cfg (s : State) : (teDone s).cfg = s.cfg := rfl
@[simp] theorem teDone_fs (s : State) : (teDone s).fs = s.fs := rfl
@[simp] theorem teDone_fsFill (s : State) : (teDone s).fsFill = s.fsFill := rfl
@[simp] theorem teDone_vsync (s : State) : (teDone s).vsync = s.vsync := rfl
@[simp] theorem teDone_row (s : State) : (teDone s).row = s.row := rfl
@[simp] theorem teDone_src (s : State) : (teDone s).src = s.src := rfl
@[simp] theorem teDone_test (s : State) : (teDone s).test = .complete := rfl
@[simp] theorem teDone_k (s : State) : (teDone s).k = s.k := rfl
@[simp] theorem teDone_run (s : State) : (teDone s).run = s.run := rfl
@[simp] theorem teDone_hcnt (s : State) : (teDone s).hcnt = s.hcnt := rfl
@[simp] theorem teDone_vcnt (s : State) : (teDone s).vcnt = s.vcnt := rfl
@[simp] theorem teDone_cmd (s : State) : (teDone s).cmd = s.cmd := rfl
@[simp] theorem teDone_result (s : State) : (teDone s).result = s.result := rfl
@[simp] theorem teDone_x0 (s : State) : (teDone s).x0 = s.x0 := rfl
@[simp] theorem teDone_y0 (s : State) : (teDone s).y0 = s.y0 := rfl
@[simp] theorem teDone_x1 (s : State) : (teDone s).x1 = s.x1 := rfl
@[simp] theorem teDone_y1 (s : State) : (teDone s).y1 = s.y1 := rfl
@[simp] theorem teDone_bw (s : State) : (teDone s).bw = s.bw := rfl
@[simp] theorem teDone_bh (s : State) : (teDone s).bh = s.bh := rfl
@[simp] theorem teDone_ptr (s : State) : (teDone s).ptr = s.ptr := rfl
@[simp] theorem teDone_len (s : State) : (teDone s).len = s.len := rfl
@[simp] theorem teDone_rc (s : State) : (teDone s).rc = s.rc := rfl
@[simp] theorem teDone_busy (s : State) : (teDone s).busy = s.busy := rfl
@[simp] theorem teDone_pend (s : State) : (teDone s).pend = s.pend := rfl
@[simp] theorem teDone_ill (s : State) : (teDone s).ill = s.ill := rfl
@[simp] theorem teDone_vout (s : State) : (teDone s).vout = s.vout := rfl
@[simp] theorem teDone_sm (s : State) : (teDone s).sm = s.sm := rfl
@[simp] theorem teDone_inbox (s : State) : (teDone s).inbox = s.inbox := rfl
@[simp] theorem teDone_reads (s : State) : (teDone s).reads = s.reads := rfl
@[simp] theorem teDone_sched (s : State) : (teDone s).sched = s.sched := rfl
@[simp] theorem teDone_turn (s : State) : (teDone s).turn = s.turn := rfl
@[simp] theorem teDone_resets (s : State) : (teDone s).resets = s.resets := rfl

/-! ### deFinish -/

@[simp] theorem deFinish_cfg (s : State) : (deFinish s).cfg = s.cfg := rfl
@[simp] theorem deFinish_fs (s : State) : (deFinish s).fs = s.fs := rfl
@[simp] theorem deFinish_fsFill (s : State) : (deFinish s).fsFill = s.fsFill := rfl
@[simp] theorem deFinish_vsync (s : State) : (deFinish s).vsync = s.vsync := rfl
@[simp] theorem deFinish_row (s : State) : (deFinish s).row = s.row := rfl
@[simp] theorem deFinish_src (s : State) : (deFinish s).src = s.src := rfl
@[simp] theorem deFinish_test (s : State) : (deFinish s).test = s.test := rfl
@[simp] theorem deFinish_k (s : State) : (deFinish s).k = s.k := rfl
@[simp] theorem deFinish_run (s : State) : (deFinish s).run = s.run := rfl
@[simp] theorem deFinish_hcnt (s : State) : (deFinish s).hcnt = s.hcnt := rfl
@[simp] theorem deFinish_vcnt (s : State) : (deFinish s).vcnt = s.vcnt := rfl
@[simp] theorem deFinish_cmd (s : State) : (deFinish s).cmd = s.cmd := rfl
@[simp] theorem deFinish_result (s : State) : (deFinish s).result = s.result := rfl
@[simp] theorem deFinish_x0 (s : State) : (deFinish s).x0 = s.x0 := rfl
@[simp] theorem deFinish_y0 (s : State) : (deFinish s).y0 = s.y0 := rfl
@[simp] theorem deFinish_x1 (s : State) : (deFinish s).x1 = s.x1 := rfl
@[simp] theorem deFinish_y1 (s : State) : (deFinish s).y1 = s.y1 := rfl
@[simp] theorem deFinish_bw (s : State) : (deFinish s).bw = s.bw := rfl
@[simp] theorem deFinish_bh (s : State) : (deFinish s).bh = s.bh := rfl
@[simp] theorem deFinish_ptr (s : State) : (deFinish s).ptr = s.ptr := rfl
@[simp] theorem deFinish_len (s : State) : (deFinish s).len = s.len := rfl
@[simp] theorem deFinish_rc (s : State) : (deFinish s).rc = s.rc := rfl
@[simp] theorem deFinish_busy (s : State) : (deFinish s).busy = false := rfl
@[simp] theorem deFinish_pend (s : State) : (deFinish s).pend = s.pend := rfl
@[simp] theorem deFinish_ill (s : State) : (deFinish s).ill = s.ill := rfl
@[simp] theorem deFinish_vout (s : State) : (deFinish s).vout = s.vout := rfl
@[simp] theorem deFinish_sm (s : State) : (deFinish s).sm = s.sm := rfl
@[simp] theorem deFinish_inbox (s : State) : (deFinish s).inbox = s.inbox := rfl
@[simp] theorem deFinish_reads (s : State) : (deFinish s).reads = s.reads := rfl
@[simp] theorem deFinish_sched (s : State) : (deFinish s).sched = s.sched := rfl
@[simp] theorem deFinish_turn (s : State) : (deFinish s).turn = s.turn := rfl
@[simp] theorem deFinish_resets (s : State) : (deFinish s).resets = s.resets := rfl

/-! ### readStep -/

@[simp] theorem readStep_cfg (s : State) (i : BitVec 5) : (readStep s i).cfg = s.cfg := rfl
@[simp] theorem readStep_fs (s : State) (i : BitVec 5) : (readStep s i).fs = s.fs := rfl
@[simp] theorem readStep_fsFill (s : State) (i : BitVec 5) : (readStep s i).fsFill = s.fsFill := rfl
@[simp] theorem readStep_vsync (s : State) (i : BitVec 5) : (readStep s i).vsync = s.vsync := rfl
@[simp] theorem readStep_row (s : State) (i : BitVec 5) : (readStep s i).row = s.row := rfl
@[simp] theorem readStep_src (s : State) (i : BitVec 5) : (readStep s i).src = s.src := rfl
@[simp] theorem readStep_test (s : State) (i : BitVec 5) : (readStep s i).test = s.test := rfl
@[simp] theorem readStep_k (s : State) (i : BitVec 5) : (readStep s i).k = s.k := rfl
@[simp] theorem readStep_run (s : State) (i : BitVec 5) : (readStep s i).run = s.run := rfl
@[simp] theorem readStep_hcnt (s : State) (i : BitVec 5) : (readStep s i).hcnt = s.hcnt := rfl
@[simp] theorem readStep_vcnt (s : State) (i : BitVec 5) : (readStep s i).vcnt = s.vcnt := rfl
@[simp] theorem readStep_cmd (s : State) (i : BitVec 5) : (readStep s i).cmd = s.cmd := rfl
@[simp] theorem readStep_result (s : State) (i : BitVec 5) : (readStep s i).result = s.result := rfl
@[simp] theorem readStep_x0 (s : State) (i : BitVec 5) : (readStep s i).x0 = s.x0 := rfl
@[simp] theorem readStep_y0 (s : State) (i : BitVec 5) : (readStep s i).y0 = s.y0 := rfl
@[simp] theorem readStep_x1 (s : State) (i : BitVec 5) : (readStep s i).x1 = s.x1 := rfl
@[simp] theorem readStep_y1 (s : State) (i : BitVec 5) : (readStep s i).y1 = s.y1 := rfl
@[simp] theorem readStep_bw (s : State) (i : BitVec 5) : (readStep s i).bw = s.bw := rfl
@[simp] theorem readStep_bh (s : State) (i : BitVec 5) : (readStep s i).bh = s.bh := rfl
@[simp] theorem readStep_ptr (s : State) (i : BitVec 5) : (readStep s i).ptr = s.ptr := rfl
@[simp] theorem readStep_len (s : State) (i : BitVec 5) : (readStep s i).len = s.len := rfl
@[simp] theorem readStep_rc (s : State) (i : BitVec 5) : (readStep s i).rc = s.rc := rfl
@[simp] theorem readStep_busy (s : State) (i : BitVec 5) : (readStep s i).busy = s.busy := rfl
@[simp] theorem readStep_pend (s : State) (i : BitVec 5) : (readStep s i).pend = s.pend := rfl
@[simp] theorem readStep_ill (s : State) (i : BitVec 5) : (readStep s i).ill = s.ill := rfl
@[simp] theorem readStep_vout (s : State) (i : BitVec 5) : (readStep s i).vout = s.vout := rfl
@[simp] theorem readStep_sm (s : State) (i : BitVec 5) : (readStep s i).sm = s.sm := rfl
@[simp] theorem readStep_inbox (s : State) (i : BitVec 5) : (readStep s i).inbox = s.inbox := rfl
@[simp] theorem readStep_reads (s : State) (i : BitVec 5) : (readStep s i).reads = s.reads ++ [{ index := i, value := readReg s i }] := rfl
@[simp] theorem readStep_sched (s : State) (i : BitVec 5) : (readStep s i).sched = s.sched := rfl
@[simp] theorem readStep_turn (s : State) (i : BitVec 5) : (readStep s i).turn = s.turn := rfl
@[simp] theorem readStep_resets (s : State) (i : BitVec 5) : (readStep s i).resets = s.resets := rfl

/-! ### applyReset -/

@[simp] theorem applyReset_cfg (s : State) : (applyReset s).cfg = s.cfg := rfl
@[simp] theorem applyReset_fs (s : State) : (applyReset s).fs = [] := rfl
@[simp] theorem applyReset_fsFill (s : State) : (applyReset s).fsFill = .powerOn := rfl
@[simp] theorem applyReset_vsync (s : State) : (applyReset s).vsync = false := rfl
@[simp] theorem applyReset_row (s : State) : (applyReset s).row = 0 := rfl
@[simp] theorem applyReset_src (s : State) : (applyReset s).src = 0 := rfl
@[simp] theorem applyReset_test (s : State) : (applyReset s).test = .idle := rfl
@[simp] theorem applyReset_k (s : State) : (applyReset s).k = 0 := rfl
@[simp] theorem applyReset_run (s : State) : (applyReset s).run = false := rfl
@[simp] theorem applyReset_hcnt (s : State) : (applyReset s).hcnt = 0 := rfl
@[simp] theorem applyReset_vcnt (s : State) : (applyReset s).vcnt = 0 := rfl
@[simp] theorem applyReset_cmd (s : State) : (applyReset s).cmd = 0 := rfl
@[simp] theorem applyReset_result (s : State) : (applyReset s).result = 0 := rfl
@[simp] theorem applyReset_x0 (s : State) : (applyReset s).x0 = 0 := rfl
@[simp] theorem applyReset_y0 (s : State) : (applyReset s).y0 = 0 := rfl
@[simp] theorem applyReset_x1 (s : State) : (applyReset s).x1 = 0 := rfl
@[simp] theorem applyReset_y1 (s : State) : (applyReset s).y1 = 0 := rfl
@[simp] theorem applyReset_bw (s : State) : (applyReset s).bw = 0 := rfl
@[simp] theorem applyReset_bh (s : State) : (applyReset s).bh = 0 := rfl
@[simp] theorem applyReset_ptr (s : State) : (applyReset s).ptr = 0 := rfl
@[simp] theorem applyReset_len (s : State) : (applyReset s).len = 0 := rfl
@[simp] theorem applyReset_rc (s : State) : (applyReset s).rc = { r0 := .zero, r1 := .zero, r2 := .zero, r3 := .zero } := rfl
@[simp] theorem applyReset_busy (s : State) : (applyReset s).busy = false := rfl
@[simp] theorem applyReset_pend (s : State) : (applyReset s).pend = [] := rfl
@[simp] theorem applyReset_ill (s : State) : (applyReset s).ill = false := rfl
@[simp] theorem applyReset_vout (s : State) : (applyReset s).vout = [] := rfl
@[simp] theorem applyReset_sm (s : State) : (applyReset s).sm = s.sm := rfl
@[simp] theorem applyReset_inbox (s : State) : (applyReset s).inbox = s.inbox := rfl
@[simp] theorem applyReset_reads (s : State) : (applyReset s).reads = s.reads := rfl
@[simp] theorem applyReset_sched (s : State) : (applyReset s).sched = s.sched := rfl
@[simp] theorem applyReset_turn (s : State) : (applyReset s).turn = s.turn := rfl
@[simp] theorem applyReset_resets (s : State) : (applyReset s).resets = s.resets + 1 := rfl

/-! ### videoInit -/

@[simp] theorem videoInit_cfg (s : State) : (videoInit s).cfg = s.cfg := rfl
@[simp] theorem videoInit_fs (s : State) : (videoInit s).fs = [] := rfl
@[simp] theorem videoInit_fsFill (s : State) : (videoInit s).fsFill = .zeroed := rfl
@[simp] theorem videoInit_vsync (s : State) : (videoInit s).vsync = false := rfl
@[simp] theorem videoInit_row (s : State) : (videoInit s).row = 0 := rfl
@[simp] theorem videoInit_src (s : State) : (videoInit s).src = 0 := rfl
@[simp] theorem videoInit_test (s : State) : (videoInit s).test = .idle := rfl
@[simp] theorem videoInit_k (s : State) : (videoInit s).k = 0 := rfl
@[simp] theorem videoInit_run (s : State) : (videoInit s).run = !periodError s.cfg := rfl
@[simp] theorem videoInit_hcnt (s : State) : (videoInit s).hcnt = 0 := rfl
@[simp] theorem videoInit_vcnt (s : State) : (videoInit s).vcnt = 0 := rfl
@[simp] theorem videoInit_cmd (s : State) : (videoInit s).cmd = s.cmd := rfl
@[simp] theorem videoInit_result (s : State) : (videoInit s).result = if periodError s.cfg then 1 else 0 := rfl
@[simp] theorem videoInit_x0 (s : State) : (videoInit s).x0 = s.x0 := rfl
@[simp] theorem videoInit_y0 (s : State) : (videoInit s).y0 = s.y0 := rfl
@[simp] theorem videoInit_x1 (s : State) : (videoInit s).x1 = s.x1 := rfl
@[simp] theorem videoInit_y1 (s : State) : (videoInit s).y1 = s.y1 := rfl
@[simp] theorem videoInit_bw (s : State) : (videoInit s).bw = s.bw := rfl
@[simp] theorem videoInit_bh (s : State) : (videoInit s).bh = s.bh := rfl
@[simp] theorem videoInit_ptr (s : State) : (videoInit s).ptr = s.ptr := rfl
@[simp] theorem videoInit_len (s : State) : (videoInit s).len = s.len := rfl
@[simp] theorem videoInit_rc (s : State) : (videoInit s).rc = s.rc := rfl
@[simp] theorem videoInit_busy (s : State) : (videoInit s).busy = s.busy := rfl
@[simp] theorem videoInit_pend (s : State) : (videoInit s).pend = s.pend := rfl
@[simp] theorem videoInit_ill (s : State) : (videoInit s).ill = false := rfl
@[simp] theorem videoInit_vout (s : State) : (videoInit s).vout = s.vout := rfl
@[simp] theorem videoInit_sm (s : State) : (videoInit s).sm = s.sm := rfl
@[simp] theorem videoInit_inbox (s : State) : (videoInit s).inbox = s.inbox := rfl
@[simp] theorem videoInit_reads (s : State) : (videoInit s).reads = s.reads := rfl
@[simp] theorem videoInit_sched (s : State) : (videoInit s).sched = s.sched := rfl
@[simp] theorem videoInit_turn (s : State) : (videoInit s).turn = s.turn := rfl
@[simp] theorem videoInit_resets (s : State) : (videoInit s).resets = s.resets := rfl

/-! ### raiseLine and teComplete: the fields no branch writes -/

@[simp] theorem raiseLine_cfg (s : State) : (raiseLine s).cfg = s.cfg := by unfold raiseLine; split <;> rfl
@[simp] theorem raiseLine_fs (s : State) : (raiseLine s).fs = s.fs := by unfold raiseLine; split <;> rfl
@[simp] theorem raiseLine_fsFill (s : State) : (raiseLine s).fsFill = s.fsFill := by unfold raiseLine; split <;> rfl
@[simp] theorem raiseLine_vsync (s : State) : (raiseLine s).vsync = s.vsync := by unfold raiseLine; split <;> rfl
@[simp] theorem raiseLine_row (s : State) : (raiseLine s).row = s.row := by unfold raiseLine; split <;> rfl
@[simp] theorem raiseLine_src (s : State) : (raiseLine s).src = s.src := by unfold raiseLine; split <;> rfl
@[simp] theorem raiseLine_run (s : State) : (raiseLine s).run = s.run := by unfold raiseLine; split <;> rfl
@[simp] theorem raiseLine_hcnt (s : State) : (raiseLine s).hcnt = s.hcnt := by unfold raiseLine; split <;> rfl
@[simp] theorem raiseLine_vcnt (s : State) : (raiseLine s).vcnt = s.vcnt := by unfold raiseLine; split <;> rfl
@[simp] theorem raiseLine_cmd (s : State) : (raiseLine s).cmd = s.cmd := by unfold raiseLine; split <;> rfl
@[simp] theorem raiseLine_result (s : State) : (raiseLine s).result = s.result := by unfold raiseLine; split <;> rfl
@[simp] theorem raiseLine_x0 (s : State) : (raiseLine s).x0 = s.x0 := by unfold raiseLine; split <;> rfl
@[simp] theorem raiseLine_y0 (s : State) : (raiseLine s).y0 = s.y0 := by unfold raiseLine; split <;> rfl
@[simp] theorem raiseLine_x1 (s : State) : (raiseLine s).x1 = s.x1 := by unfold raiseLine; split <;> rfl
@[simp] theorem raiseLine_y1 (s : State) : (raiseLine s).y1 = s.y1 := by unfold raiseLine; split <;> rfl
@[simp] theorem raiseLine_bw (s : State) : (raiseLine s).bw = s.bw := by unfold raiseLine; split <;> rfl
@[simp] theorem raiseLine_bh (s : State) : (raiseLine s).bh = s.bh := by unfold raiseLine; split <;> rfl
@[simp] theorem raiseLine_ptr (s : State) : (raiseLine s).ptr = s.ptr := by unfold raiseLine; split <;> rfl
@[simp] theorem raiseLine_len (s : State) : (raiseLine s).len = s.len := by unfold raiseLine; split <;> rfl
@[simp] theorem raiseLine_rc (s : State) : (raiseLine s).rc = s.rc := by unfold raiseLine; split <;> rfl
@[simp] theorem raiseLine_busy (s : State) : (raiseLine s).busy = s.busy := by unfold raiseLine; split <;> rfl
@[simp] theorem raiseLine_pend (s : State) : (raiseLine s).pend = s.pend := by unfold raiseLine; split <;> rfl
@[simp] theorem raiseLine_ill (s : State) : (raiseLine s).ill = s.ill := by unfold raiseLine; split <;> rfl
@[simp] theorem raiseLine_vout (s : State) : (raiseLine s).vout = s.vout := by unfold raiseLine; split <;> rfl
@[simp] theorem raiseLine_sm (s : State) : (raiseLine s).sm = s.sm := by unfold raiseLine; split <;> rfl
@[simp] theorem raiseLine_inbox (s : State) : (raiseLine s).inbox = s.inbox := by unfold raiseLine; split <;> rfl
@[simp] theorem raiseLine_reads (s : State) : (raiseLine s).reads = s.reads := by unfold raiseLine; split <;> rfl
@[simp] theorem raiseLine_sched (s : State) : (raiseLine s).sched = s.sched := by unfold raiseLine; split <;> rfl
@[simp] theorem raiseLine_turn (s : State) : (raiseLine s).turn = s.turn := by unfold raiseLine; split <;> rfl
@[simp] theorem raiseLine_resets (s : State) : (raiseLine s).resets = s.resets := by unfold raiseLine; split <;> rfl
@[simp] theorem teComplete_cfg (s : State) : (teComplete s).cfg = s.cfg := by unfold teComplete; split <;> rfl
@[simp] theorem teComplete_fs (s : State) : (teComplete s).fs = s.fs := by unfold teComplete; split <;> rfl
@[simp] theorem teComplete_fsFill (s : State) : (teComplete s).fsFill = s.fsFill := by unfold teComplete; split <;> rfl
@[simp] theorem teComplete_run (s : State) : (teComplete s).run = s.run := by unfold teComplete; split <;> rfl
@[simp] theorem teComplete_hcnt (s : State) : (teComplete s).hcnt = s.hcnt := by unfold teComplete; split <;> rfl
@[simp] theorem teComplete_vcnt (s : State) : (teComplete s).vcnt = s.vcnt := by unfold teComplete; split <;> rfl
@[simp] theorem teComplete_cmd (s : State) : (teComplete s).cmd = s.cmd := by unfold teComplete; split <;> rfl
@[simp] theorem teComplete_result (s : State) : (teComplete s).result = s.result := by unfold teComplete; split <;> rfl
@[simp] theorem teComplete_x0 (s : State) : (teComplete s).x0 = s.x0 := by unfold teComplete; split <;> rfl
@[simp] theorem teComplete_y0 (s : State) : (teComplete s).y0 = s.y0 := by unfold teComplete; split <;> rfl
@[simp] theorem teComplete_x1 (s : State) : (teComplete s).x1 = s.x1 := by unfold teComplete; split <;> rfl
@[simp] theorem teComplete_y1 (s : State) : (teComplete s).y1 = s.y1 := by unfold teComplete; split <;> rfl
@[simp] theorem teComplete_bw (s : State) : (teComplete s).bw = s.bw := by unfold teComplete; split <;> rfl
@[simp] theorem teComplete_bh (s : State) : (teComplete s).bh = s.bh := by unfold teComplete; split <;> rfl
@[simp] theorem teComplete_ptr (s : State) : (teComplete s).ptr = s.ptr := by unfold teComplete; split <;> rfl
@[simp] theorem teComplete_len (s : State) : (teComplete s).len = s.len := by unfold teComplete; split <;> rfl
@[simp] theorem teComplete_rc (s : State) : (teComplete s).rc = s.rc := by unfold teComplete; split <;> rfl
@[simp] theorem teComplete_busy (s : State) : (teComplete s).busy = s.busy := by unfold teComplete; split <;> rfl
@[simp] theorem teComplete_pend (s : State) : (teComplete s).pend = s.pend := by unfold teComplete; split <;> rfl
@[simp] theorem teComplete_ill (s : State) : (teComplete s).ill = s.ill := by unfold teComplete; split <;> rfl
@[simp] theorem teComplete_vout (s : State) : (teComplete s).vout = s.vout := by unfold teComplete; split <;> rfl
@[simp] theorem teComplete_sm (s : State) : (teComplete s).sm = s.sm := by unfold teComplete; split <;> rfl
@[simp] theorem teComplete_inbox (s : State) : (teComplete s).inbox = s.inbox := by unfold teComplete; split <;> rfl
@[simp] theorem teComplete_reads (s : State) : (teComplete s).reads = s.reads := by unfold teComplete; split <;> rfl
@[simp] theorem teComplete_sched (s : State) : (teComplete s).sched = s.sched := by unfold teComplete; split <;> rfl
@[simp] theorem teComplete_turn (s : State) : (teComplete s).turn = s.turn := by unfold teComplete; split <;> rfl
@[simp] theorem teComplete_resets (s : State) : (teComplete s).resets = s.resets := by unfold teComplete; split <;> rfl

end Sys2Proof.Machine
end

