-- ==== Sys2Proof/Laws/Memory.lean ====
section
/-! SUPPORT. The laws of the byte memories: a read after a write, and the canonical form. -/
namespace Sys2Proof.Machine

variable {d : Nat → Byte}

@[simp] theorem Memory.read_nil (a : Nat) : Memory.read d [] a = d a := rfl

theorem Memory.read_cons (b : Nat) (v : Byte) (m : List Host.Cell) (a : Nat) :
    Memory.read d ((b, v) :: m) a = if a = b then v else Memory.read d m a := rfl

/-- An address above none of whose entries is listed reads as unlisted. -/
theorem Memory.read_of_not_listed {m : List Host.Cell} {a : Nat} (h : ∀ c ∈ m, c.1 ≠ a) :
    Memory.read d m a = d a := by
  induction m with
  | nil => rfl
  | cons c m ih =>
    have hc : a ≠ c.1 := fun e => h c (by simp) e.symm
    simp [Memory.read, hc, ih (fun e he => h e (by simp [he]))]

theorem Memory.read_entry_append (m : List Host.Cell) (a b : Nat) (v : Byte) (h : ∀ c ∈ m, c.1 ≠ a) :
    Memory.read d (Memory.entry d a v ++ m) b = if b = a then v else Memory.read d m b := by
  unfold Memory.entry
  by_cases hv : v = d a
  · by_cases hb : b = a
    · subst hb
      simp [hv, Memory.read_of_not_listed h]
    · simp [hv, hb]
  · simp [hv, Memory.read_cons]

/-- Every address a write lists was listed or is the address written. -/
theorem Memory.mem_write {m : List Host.Cell} {a : Nat} {v : Byte} {c : Host.Cell}
    (h : c ∈ Memory.write d m a v) : c ∈ m ∨ (c = (a, v) ∧ v ≠ d a) := by
  have hentry : c ∈ Memory.entry d a v → c = (a, v) ∧ v ≠ d a := by
    unfold Memory.entry
    split <;> simp_all
  induction m with
  | nil => exact .inr (hentry h)
  | cons e m ih =>
    obtain ⟨b, w⟩ := e
    unfold Memory.write at h
    split at h
    · rcases List.mem_append.1 h with h | h
      · exact .inr (hentry h)
      · exact .inl h
    · split at h
      · rcases List.mem_append.1 h with h | h
        · exact .inr (hentry h)
        · exact .inl (List.mem_cons_of_mem _ h)
      · rcases List.mem_cons.1 h with h | h
        · exact .inl (h ▸ List.mem_cons_self)
        · exact (ih h).imp (List.mem_cons_of_mem _) id

/-- A read after a write, in a memory in canonical form. -/
theorem Memory.read_write {m : List Host.Cell} (hm : Memory.wf d m) (a b : Nat) (v : Byte) :
    Memory.read d (Memory.write d m a v) b = if b = a then v else Memory.read d m b := by
  induction m with
  | nil => simpa [Memory.write] using Memory.read_entry_append (d := d) [] a b v (by simp)
  | cons e m ih =>
    obtain ⟨c, w⟩ := e
    obtain ⟨hsort, hval⟩ := hm
    have hrise : ∀ f ∈ m, c < f.1 := fun f hf => (List.pairwise_cons.1 hsort).1 f hf
    have hm' : Memory.wf d m := ⟨(List.pairwise_cons.1 hsort).2, fun f hf => hval f (by simp [hf])⟩
    unfold Memory.write
    split
    · rename_i hac
      exact Memory.read_entry_append _ a b v fun f hf => by
        rcases List.mem_cons.1 hf with rfl | hf
        · exact Nat.ne_of_gt hac
        · exact Nat.ne_of_gt (Nat.lt_trans hac (hrise f hf))
    · split
      · rename_i hac
        subst hac
        rw [Memory.read_entry_append m a b v fun f hf => Nat.ne_of_gt (hrise f hf)]
        by_cases hb : b = a <;> simp [hb, Memory.read_cons]
      · rename_i hac hne
        rw [Memory.read_cons, ih hm', Memory.read_cons]
        by_cases hb : b = c
        · subst hb
          simp [Ne.symm hne]
        · simp [hb]

/-- A write keeps the canonical form. -/
theorem Memory.wf_write {m : List Host.Cell} (hm : Memory.wf d m) (a : Nat) (v : Byte) :
    Memory.wf d (Memory.write d m a v) := by
  refine ⟨?_, fun c hc => ?_⟩
  · induction m with
    | nil =>
      unfold Memory.write Memory.entry
      split <;> simp
    | cons e m ih =>
      obtain ⟨c, w⟩ := e
      obtain ⟨hsort, hval⟩ := hm
      have hrise : ∀ f ∈ m, c < f.1 := fun f hf => (List.pairwise_cons.1 hsort).1 f hf
      have hm' : Memory.wf d m := ⟨(List.pairwise_cons.1 hsort).2, fun f hf => hval f (by simp [hf])⟩
      unfold Memory.write
      split
      · rename_i hac
        unfold Memory.entry
        split
        · exact hsort
        · refine List.pairwise_cons.2 ⟨fun f hf => ?_, hsort⟩
          rcases List.mem_cons.1 hf with rfl | hf
          · exact hac
          · exact Nat.lt_trans hac (hrise f hf)
      · split
        · rename_i hac
          subst hac
          unfold Memory.entry
          split
          · exact hm'.1
          · exact List.pairwise_cons.2 ⟨hrise, hm'.1⟩
        · rename_i hac hne
          refine List.pairwise_cons.2 ⟨fun f hf => ?_, ih hm'⟩
          rcases Memory.mem_write hf with hf | ⟨rfl, -⟩
          · exact hrise f hf
          · exact Nat.lt_of_le_of_ne (Nat.le_of_not_lt hac) (Ne.symm hne)
  · rcases Memory.mem_write hc with hc | ⟨rfl, hv⟩
    · exact hm.2 c hc
    · exact hv

theorem Memory.wf_nil : Memory.wf d [] := ⟨List.Pairwise.nil, by simp⟩

/-- Equal contents are equal data. -/
theorem Memory.ext_of_wf {m n : List Host.Cell} (hm : Memory.wf d m) (hn : Memory.wf d n)
    (h : ∀ a, Memory.read d m a = Memory.read d n a) : m = n := by
  have rd : ∀ {l : List Host.Cell} {b : Nat} {v : Byte}, Memory.wf d ((b, v) :: l) →
      Memory.wf d l ∧ (∀ f ∈ l, b < f.1) ∧ v ≠ d b := fun {l b v} hl =>
    ⟨⟨(List.pairwise_cons.1 hl.1).2, fun f hf => hl.2 f (by simp [hf])⟩,
      fun f hf => (List.pairwise_cons.1 hl.1).1 f hf, hl.2 (b, v) (by simp)⟩
  have low : ∀ {l : List Host.Cell} {a : Nat}, (∀ f ∈ l, a < f.1) → Memory.read d l a = d a :=
    fun hl => Memory.read_of_not_listed fun f hf => Nat.ne_of_gt (hl f hf)
  induction m generalizing n with
  | nil =>
    cases n with
    | nil => rfl
    | cons e n =>
      obtain ⟨b, v⟩ := e
      have := h b
      simp only [Memory.read_nil, Memory.read_cons, if_true] at this
      exact absurd this.symm (rd hn).2.2
  | cons e m ih =>
    obtain ⟨b, v⟩ := e
    obtain ⟨hm', hrise, hv⟩ := rd hm
    cases n with
    | nil =>
      have := h b
      simp only [Memory.read_nil, Memory.read_cons, if_true] at this
      exact absurd this hv
    | cons e n =>
      obtain ⟨c, w⟩ := e
      obtain ⟨hn', hrise', hw⟩ := rd hn
      have hbc : b = c := by
        rcases Nat.lt_trichotomy b c with hlt | heq | hgt
        · have := h b
          rw [Memory.read_cons, if_pos rfl, low fun f hf => ?_] at this
          · exact absurd this hv
          · rcases List.mem_cons.1 hf with rfl | hf
            · exact hlt
            · exact Nat.lt_trans hlt (hrise' f hf)
        · exact heq
        · have := h c
          rw [low (l := (b, v) :: m) fun f hf => ?_, Memory.read_cons, if_pos rfl] at this
          · exact absurd this.symm hw
          · rcases List.mem_cons.1 hf with rfl | hf
            · exact hgt
            · exact Nat.lt_trans hgt (hrise f hf)
      subst hbc
      have hvw : v = w := by simpa [Memory.read_cons] using h b
      subst hvw
      refine congrArg _ (ih hm' hn' fun a => ?_)
      by_cases ha : a = b
      · subst ha
        rw [low hrise, low hrise']
      · simpa [Memory.read_cons, ha] using h a

end Sys2Proof.Machine
end

