-- ==== Sys2Proof/Laws/Ops.lean ====
section
/-! SUPPORT. One lemma per shared operation: all it can do when it answers a next state. -/
namespace Sys2Proof.Machine

/-- `fsByte` depends on the listed bytes and on what an unlisted byte reads as. -/
theorem fsByte_congr {s t : State} (hfs : t.fs = s.fs) (hfill : t.fsFill = s.fsFill) (hr : t.resets = s.resets) (a : Nat) :
    t.fsByte a = s.fsByte a := by
  unfold State.fsByte State.fsUnwritten
  rw [hfs, hfill, hr]

/-- `fsUnwritten` depends on the fill and on the number of resets. -/
theorem fsUnwritten_congr {s t : State} (hfill : t.fsFill = s.fsFill) (hr : t.resets = s.resets) :
    t.fsUnwritten = s.fsUnwritten := by
  funext a
  unfold State.fsUnwritten
  rw [hfill, hr]

@[simp] theorem fsPut_fsUnwritten (s : State) (a : Nat) (v : Byte) : (s.fsPut a v).fsUnwritten = s.fsUnwritten := rfl

/-- A read of one Frame Store byte after one was replaced. -/
theorem fsPut_fsByte {s : State} (h : Memory.wf s.fsUnwritten s.fs) (a b : Nat) (v : Byte) :
    (s.fsPut a v).fsByte b = if b = a then v else s.fsByte b :=
  Memory.read_write h a b v

/-- Replacing a Frame Store byte keeps the canonical form. -/
theorem fsPut_wf {s : State} (h : Memory.wf s.fsUnwritten s.fs) (a : Nat) (v : Byte) :
    Memory.wf (s.fsPut a v).fsUnwritten (s.fsPut a v).fs :=
  Memory.wf_write h a v

/-- A zeroed Frame Store reads 0x00 everywhere. -/
@[simp] theorem fsZero_fsByte (s : State) (a : Nat) : s.fsZero.fsByte a = 0x00 := rfl

/-- `fsRmw` answers a next state exactly at an address that exists, and then replaces that byte. -/
theorem fsRmw_next {s t : State} {a : Nat} {g : Byte → Byte} :
    fsRmw s a g = .next t ↔ a < s.cfg.fsBytes ∧ t = s.fsPut a (g (s.fsByte a)) := by
  unfold fsRmw
  split <;> simp_all [eq_comm]

/-- `fsRead` answers the byte exactly at an address that exists. -/
theorem fsRead_some {s : State} {a : Nat} {b : Byte} : fsRead s a = some b ↔ a < s.cfg.fsBytes ∧ b = s.fsByte a := by
  unfold fsRead
  split <;> simp_all [eq_comm]

/-- `perform` answers a next state exactly at an address that exists. -/
theorem perform_next {s t : State} {w : WriteAction} :
    perform w s = .next t ↔ w.address < s.cfg.fsBytes ∧ t = s.fsPut w.address (w.apply (s.fsByte w.address)) :=
  fsRmw_next

/-- All a drawing launch can do. -/
theorem launchDrawing_next {w : Word} {acts : List WriteAction} {s t : State} :
    launchDrawing w acts s = .next t ↔
      (s.busy = true ∧ t = s) ∨ (s.busy = false ∧ t = { s with cmd := w, pend := acts, busy := true }) := by
  unfold launchDrawing
  cases s.busy <;> simp [eq_comm]

/-- All an immediate launch can do. -/
theorem launchImmediate_next {w : Word} {effect : State → State} {s t : State} :
    launchImmediate w effect s = .next t ↔
      (s.busy = true ∧ t = s) ∨ (s.busy = false ∧ t = effect { s with cmd := w }) := by
  unfold launchImmediate
  cases s.busy <;> simp [eq_comm]

/-- The three commands that act inside the launch step (R171). -/
def immediateEffect : Instr → Option (State → State)
  | .copyrect f => some fun t => { t with rc := t.rc.set f.ra (t.rc.get f.rb) }
  | .getcrect f => some fun t => { t with rc := t.rc.set f.ra (clientRect t.cfg) }
  | .init _ => some videoInit
  | _ => none

/-- The write list `writes(command, registers, SM)` of a drawing command (R161). -/
def commandWrites (i : Instr) (s : State) : List WriteAction :=
  match i with
  | .point f => pointActs s.cfg (rectOperand f s) (s16 s.x0) (s16 s.y0) f.rop
  | .line f => lineActs s.cfg (rectOperand f s) (s16 s.x0) (s16 s.y0) (s16 s.x1) (s16 s.y1) f.rop
  | .rect f => rectActs s.cfg (s16 s.x0) (s16 s.y0) (s16 s.x1) (s16 s.y1) f.rop
  | .rectr f => rectrActs s.cfg (rectOperand f s) f.rop
  | .bitblt f => bltActs s.cfg (s16 s.x0) (s16 s.y0) (s16 s.bw) (s16 s.bh) (smBit s (u16 s.ptr) (s16 s.bw)) f.rop
  | .text f => textActs s.cfg (rectOperand f s) (textOperand s) f.al f.rop
  | .texta f => textaActs s.cfg (s16 s.x0) (s16 s.y0) (textOperand s) f.rop f.al
  | .invline _ => rowsActs s.cfg (s16 s.y0) 1 .inv
  | .invtline _ => rowsActs s.cfg (s16 s.y0) 8 .inv
  | .clrtline _ => rowsActs s.cfg (s16 s.y0) 8 .zero
  | .clear _ => clearActs s.cfg
  | .copyrect _ | .getcrect _ | .init _ => []

/-- `exec` always answers a next state, and this is all it can do. -/
theorem exec_eq (i : Instr) (s : State) :
    exec i s =
      match immediateEffect i with
      | some e => launchImmediate (encode i) e s
      | none => launchDrawing (encode i) (commandWrites i s) s := by
  cases i <;> rfl

/-- All a HOST write to `CMD` can do. -/
theorem writeCmd_next {s t : State} {w : Word} (h : writeCmd s w = .next t) :
    (∃ i, decode w = .ok i ∧ exec i s = .next t) ∨ ((∃ e, decode w = .error e) ∧ t = launchIllegal w s) := by
  unfold writeCmd at h
  split at h
  · exact .inl ⟨_, ‹_›, h⟩
  · rename_i e he
    exact .inr ⟨⟨e, he⟩, by simpa [eq_comm] using h⟩

/-- All a HOST register write can do. -/
theorem writeReg_next {s t : State} {i : BitVec 5} {v : Word} (h : writeReg s i v = .next t) :
    (i = 0x00 ∧ writeCmd s v = .next t) ∨ (i ≠ 0x00 ∧ s.busy = true ∧ t = s) ∨
      (i ≠ 0x00 ∧ s.busy = false ∧ t = putReg s i v) := by
  unfold writeReg at h
  split at h
  · exact .inl ⟨‹_›, h⟩
  · rename_i hi
    have ht := Host.Outcome.next.inj h
    cases hb : s.busy
    · exact .inr (.inr ⟨hi, rfl, by simpa [hb] using ht.symm⟩)
    · exact .inr (.inl ⟨hi, rfl, by simpa [hb] using ht.symm⟩)

/-- Two Source Memory addresses differ by `d` modulo 65536 exactly when the second is the first advanced by `d` (R63). -/
theorem wrap16_sub_eq {a p d : Nat} (ha : a < 65536) (hd : d < 65536) :
    wrap16 ((a : Int) - (p : Int)) = d ↔ a = (p + d) % 65536 := by
  unfold wrap16
  omega

/-- The bytes a text occupies (R206). -/
theorem textReads_iff {p n a : Nat} (ha : a < 65536) (hn : n ≤ 65536) :
    textReads p n a = true ↔ ∃ i, i < n ∧ a = (p + i) % 65536 := by
  have hw : wrap16 ((a : Int) - (p : Int)) < 65536 := by
    unfold wrap16
    omega
  simp only [textReads, decide_eq_true_eq]
  constructor
  · exact fun h => ⟨_, h, (wrap16_sub_eq ha hw).1 rfl⟩
  · rintro ⟨i, hi, h⟩
    rwa [(wrap16_sub_eq ha (by omega)).2 h]

/-- The bytes of a bitmap that have a drawn bit (R200, R203). -/
theorem bitmapReads_iff {c : Cfg} {x y w h : Int} {p a : Nat} (ha : a < 65536) (hw : w < 65536) :
    bitmapReads c x y w h p a = true ↔
      ∃ r j, bltDraws c x y w h r j ∧ a = (p + r * (stride w).toNat + j / 8) % 65536 := by
  have hrow : ∀ r : Nat, 0 < w →
      (a : Int) - (p : Int) - (r : Int) * stride w = (a : Int) - ((p + r * (stride w).toNat : Nat) : Int) := by
    intro r hw0
    obtain ⟨n, hn⟩ : ∃ n : Nat, stride w = n := Int.eq_ofNat_of_zero_le (by unfold stride; omega)
    rw [hn, Int.toNat_natCast]
    push_cast
    omega
  have hst : (stride w).toNat = ((w + 7) / 8).toNat := rfl
  simp only [bitmapReads, pixAddress, Bool.and_eq_true, decide_eq_true_eq, List.any_eq_true, List.mem_range]
  constructor
  · rintro ⟨⟨hw0, hh0, hx, hy, hxp⟩, r, hr, hq, hf⟩
    rw [hrow r hw0] at hq hf
    obtain ⟨q, hqd⟩ : ∃ q, wrap16 ((a : Int) - ((p + r * (stride w).toNat : Nat) : Int)) = q := ⟨_, rfl⟩
    rw [hqd] at hq hf
    have hqa := (wrap16_sub_eq ha (by omega)).1 hqd
    refine ⟨r, 8 * q, ⟨by omega, by omega, hx, hxp, hy, by omega, of_decide_eq_true hf⟩, ?_⟩
    rwa [Nat.mul_div_cancel_left q (by decide)]
  · rintro ⟨r, j, ⟨hr, hj, hx, hxp, hy, hyp, hf⟩, hadr⟩
    have hw0 : 0 < w := by omega
    have hq := (wrap16_sub_eq ha (by omega)).2 hadr
    refine ⟨⟨hw0, by omega, hx, hy, hxp⟩, r, by omega, ?_, ?_⟩
    · rw [hrow r hw0, hq]
      omega
    · rw [hrow r hw0, hq]
      exact decide_eq_true (lt_of_le_of_lt (Nat.add_le_add_left (Nat.div_le_div_right (by omega)) _) hf)

/-- All a Source Memory write can do. -/
theorem smWrite_next {s t : State} {a : Word} {v : Byte} (h : smWrite s a v = .next t) :
    (smInUse s a = false ∨ v = smRead s (u16 a)) ∧ t = { s with sm := Memory.write smUnwritten s.sm a.toNat v } := by
  unfold smWrite at h
  split at h
  · simp at h
  · rename_i hu
    refine ⟨?_, by simpa [eq_comm] using h⟩
    cases hx : smInUse s a
    · exact .inl rfl
    · exact .inr (by simpa [hx] using hu)

/-- All a turn of the TE can do. -/
theorem teStep_next {s t : State} (h : teStep s = .next t) :
    (s.test = .idle ∧ t = s) ∨ (s.test = .armed ∧ t = teStart s) ∨
      (s.test = .active ∧ s.k < s.cfg.cols ∧ s.src.toNat + s.k < s.cfg.fsBytes ∧
        t = { s with
          vout := s.vout ++ [{ row := s.row.toNat, k := s.k, byte := s.fsByte (s.src.toNat + s.k) }], k := s.k + 1 }) ∨
      (s.test = .active ∧ s.k = s.cfg.cols ∧ t = teDone s) ∨ (s.test = .active ∧ s.cfg.cols < s.k ∧ t = s) ∨
      (s.test = .complete ∧ t = teComplete s) := by
  unfold teStep at h
  split at h
  · exact .inl ⟨‹_›, by simpa [eq_comm] using h⟩
  · exact .inr (.inl ⟨‹_›, by simpa [eq_comm] using h⟩)
  · rename_i hte
    split at h
    · rename_i hk
      unfold teShift at h
      split at h
      · rename_i b hb
        obtain ⟨ha, rfl⟩ := fsRead_some.1 hb
        exact .inr (.inr (.inl ⟨hte, hk, ha, by simpa [eq_comm] using h⟩))
      · simp at h
    · split at h
      · exact .inr (.inr (.inr (.inl ⟨hte, ‹_›, by simpa [eq_comm] using h⟩)))
      · exact .inr (.inr (.inr (.inr (.inl ⟨hte, by omega, by simpa [eq_comm] using h⟩))))
  · exact .inr (.inr (.inr (.inr (.inr ⟨‹_›, by simpa [eq_comm] using h⟩))))

/-- All a turn of the DE can do. -/
theorem deStep_next {s t : State} (h : deStep s = .next t) :
    (s.busy = false ∧ t = s) ∨ (s.busy = true ∧ s.pend = [] ∧ t = deFinish s) ∨
      (s.busy = true ∧ s.pend ≠ [] ∧ s.vsync = false ∧ t = s) ∨
      (∃ w rest, s.busy = true ∧ s.pend = w :: rest ∧ s.vsync = true ∧ w.address < s.cfg.fsBytes ∧
        t = ({ s with pend := rest } : State).fsPut w.address (w.apply (s.fsByte w.address))) := by
  unfold deStep at h
  split at h
  · rename_i hb
    split at h
    · exact .inr (.inl ⟨hb, ‹_›, by simpa [eq_comm] using h⟩)
    · rename_i w rest hp
      split at h
      · rename_i hv
        obtain ⟨ha, rfl⟩ := perform_next.1 h
        exact .inr (.inr (.inr ⟨w, rest, hb, hp, hv, ha, rfl⟩))
      · rename_i hv
        exact .inr (.inr (.inl ⟨hb, by simp [hp], by simpa using hv, by simpa [eq_comm] using h⟩))
  · rename_i hb
    exact .inl ⟨by simpa using hb, by simpa [eq_comm] using h⟩

/-- All a turn of the HOST can do. -/
theorem hostStep_next {s t : State} (h : hostStep s = .next t) :
    (s.inbox = [] ∧ t = s) ∨
      (∃ i rest, s.inbox = .read i :: rest ∧ t = readStep { s with inbox := rest } i) ∨
      (∃ i v rest, s.inbox = .write i v :: rest ∧ writeReg { s with inbox := rest } i v = .next t) ∨
      (∃ rest, s.inbox = .wait :: rest ∧ t = readStep (if s.busy then s else { s with inbox := rest }) 0x01) ∨
      (∃ a v rest, s.inbox = .smWrite a v :: rest ∧ smWrite { s with inbox := rest } a v = .next t) ∨
      (∃ rest, s.inbox = .reset :: rest ∧ t = applyReset { s with inbox := rest }) := by
  unfold hostStep at h
  split at h
  · exact .inl ⟨‹_›, (Host.Outcome.next.inj h).symm⟩
  · exact .inr (.inl ⟨_, _, ‹_›, (Host.Outcome.next.inj h).symm⟩)
  · exact .inr (.inr (.inl ⟨_, _, _, ‹_›, h⟩))
  · exact .inr (.inr (.inr (.inl ⟨_, ‹_›, (Host.Outcome.next.inj h).symm⟩)))
  · exact .inr (.inr (.inr (.inr (.inl ⟨_, _, _, ‹_›, h⟩))))
  · exact .inr (.inr (.inr (.inr (.inr ⟨_, ‹_›, (Host.Outcome.next.inj h).symm⟩))))

/-- A step is the turn of the agent whose turn it is, in a configuration of this block. -/
theorem step_next {s t : State} (h : step s = .next t) :
    s.cfg.wf = true ∧ agentStep (nextAgent s) (takeTurn s) = .next t := by
  unfold step at h
  split at h
  · exact ⟨‹_›, h⟩
  · simp at h

end Sys2Proof.Machine
end

