-- ==== Sys2Proof/Laws/PerInstr.lean ====
section
/-! SUPPORT. Statements for all instructions, made per instruction. -/
namespace Sys2Proof.Laws

/-- 30_encoding R98, R102: the word of a command is legal: `Z` is 0 and `OP` is neither 0x0 nor 0xF, whatever its fields
hold. -/
def EncodesLegally.Statement (i : Instr) : Prop := legalWord (encode i) = true

/-- The word of a command is legal as soon as its opcode is one of the table's. -/
theorem encodesLegally_of (i : Instr) (h0 : i.opcode ≠ 0#4) (hF : i.opcode ≠ 15#4) : legalWord (encode i) = true := by
  have z : (encode i).extractLsb' 12 4 = 0#4 := by
    unfold encode
    apply BitVec.eq_of_getLsbD_eq
    intro k hk
    rw [BitVec.getLsbD_extractLsb']
    repeat rw [BitVec.getLsbD_append, if_neg (by omega)]
    simp
  have o : (encode i).extractLsb' 0 4 = i.opcode := by
    unfold encode
    apply BitVec.eq_of_getLsbD_eq
    intro k hk
    rw [BitVec.getLsbD_extractLsb', BitVec.getLsbD_append, if_pos (by omega)]
    simp [hk]
  simp only [legalWord, z, o]
  exact Bool.and_eq_true_iff.mpr ⟨Bool.and_eq_true_iff.mpr ⟨rfl, decide_eq_true h0⟩, decide_eq_true hF⟩

/-- POINT. -/
theorem EncodesLegally.point (f : Fields) : EncodesLegally.Statement (.point f) :=
  encodesLegally_of _ (by simp [Instr.opcode]) (by simp [Instr.opcode])

/-- LINE. -/
theorem EncodesLegally.line (f : Fields) : EncodesLegally.Statement (.line f) :=
  encodesLegally_of _ (by simp [Instr.opcode]) (by simp [Instr.opcode])

/-- RECT. -/
theorem EncodesLegally.rect (f : Fields) : EncodesLegally.Statement (.rect f) :=
  encodesLegally_of _ (by simp [Instr.opcode]) (by simp [Instr.opcode])

/-- RECTR. -/
theorem EncodesLegally.rectr (f : Fields) : EncodesLegally.Statement (.rectr f) :=
  encodesLegally_of _ (by simp [Instr.opcode]) (by simp [Instr.opcode])

/-- BITBLT. -/
theorem EncodesLegally.bitblt (f : Fields) : EncodesLegally.Statement (.bitblt f) :=
  encodesLegally_of _ (by simp [Instr.opcode]) (by simp [Instr.opcode])

/-- TEXT. -/
theorem EncodesLegally.text (f : Fields) : EncodesLegally.Statement (.text f) :=
  encodesLegally_of _ (by simp [Instr.opcode]) (by simp [Instr.opcode])

/-- TEXTA. -/
theorem EncodesLegally.texta (f : Fields) : EncodesLegally.Statement (.texta f) :=
  encodesLegally_of _ (by simp [Instr.opcode]) (by simp [Instr.opcode])

/-- INVLINE. -/
theorem EncodesLegally.invline (f : Fields) : EncodesLegally.Statement (.invline f) :=
  encodesLegally_of _ (by simp [Instr.opcode]) (by simp [Instr.opcode])

/-- INVTLINE. -/
theorem EncodesLegally.invtline (f : Fields) : EncodesLegally.Statement (.invtline f) :=
  encodesLegally_of _ (by simp [Instr.opcode]) (by simp [Instr.opcode])

/-- CLRTLINE. -/
theorem EncodesLegally.clrtline (f : Fields) : EncodesLegally.Statement (.clrtline f) :=
  encodesLegally_of _ (by simp [Instr.opcode]) (by simp [Instr.opcode])

/-- COPYRECT. -/
theorem EncodesLegally.copyrect (f : Fields) : EncodesLegally.Statement (.copyrect f) :=
  encodesLegally_of _ (by simp [Instr.opcode]) (by simp [Instr.opcode])

/-- GETCRECT. -/
theorem EncodesLegally.getcrect (f : Fields) : EncodesLegally.Statement (.getcrect f) :=
  encodesLegally_of _ (by simp [Instr.opcode]) (by simp [Instr.opcode])

/-- INIT. -/
theorem EncodesLegally.init (f : Fields) : EncodesLegally.Statement (.init f) :=
  encodesLegally_of _ (by simp [Instr.opcode]) (by simp [Instr.opcode])

/-- CLEAR. -/
theorem EncodesLegally.clear (f : Fields) : EncodesLegally.Statement (.clear f) :=
  encodesLegally_of _ (by simp [Instr.opcode]) (by simp [Instr.opcode])

end Sys2Proof.Laws
end

