-- ==== Sys2Proof/Tests/Slice0.lean ====
section
/-! SUPPORT. Tests: ill-formed terms the checks refuse, words of the spec's encoding, at most two small tests a command and
a few a unit, expected values from 95_test_vectors.md (V<n>, P<n>) and the rules; and, for every statement with hypotheses,
a state and operands that meet them. -/
namespace Sys2Proof.Tests
open Sys2Proof.Machine

/-! ### Helpers -/

/-- Configuration A of 95_test_vectors.md. -/
def cfgA : Cfg := { Config.reference with hb := 1, pad := 0, vl := 4 }
/-- Configuration B of 95_test_vectors.md. -/
def cfgB : Cfg := { Config.reference with hb := 2, pad := 1, vl := 8, vTotal := 12 }
/-- Configuration C of 95_test_vectors.md, with its font. -/
def cfgC : Cfg := Config.reference
/-- Configuration T of 95_test_vectors.md. -/
def cfgT : Cfg := { Config.reference with hb := 1, pad := 1, vl := 4, hTotal := 6, vTotal := 7 }

/-- An idle block in a configuration, the Frame Store zeroed. -/
def idle (c : Cfg) : State := { State.resetOf c with fsFill := .zeroed }
/-- A running block with the gate open. -/
def open_ (c : Cfg) : State := { idle c with run := true, vsync := true }
/-- The state an outcome holds, if it is a next state. -/
def next? : Result → Option State
  | .next s => some s
  | _ => none
/-- The write list a launch leaves. -/
def acts (r : Result) : List WriteAction := ((next? r).map State.pend).getD []
/-- Row `r` of the Frame Store once the write list of a launch has been performed. -/
def rowAfter (r : Result) (row : Nat) : List Byte :=
  match next? r with
  | some s => (List.range s.cfg.cols).map fun k => (paint s.pend s).fsByte (row * s.cfg.cols + k)
  | none => []
/-- The command fields an assembler sets (R100). -/
def rop (o : RasterOp) : Fields := { Fields.zero with rop := o }
/-- The same with the null rectangle. -/
def nul (o : RasterOp) : Fields := { Fields.zero with rop := o, nr := true }

/-! ### WellFormed: an ill-formed term for each check -/

theorem test_cfg_reference_ok : Config.reference.wf = true := by decide
theorem test_cfg_hb_zero_refused : ({ cfgB with hb := 0 } : Cfg).geometryOk = false := by decide
theorem test_cfg_vl_zero_refused : ({ cfgB with vl := 0 } : Cfg).geometryOk = false := by decide
theorem test_cfg_store_too_large_refused : ({ cfgB with hb := 4095, pad := 0, vl := 17 } : Cfg).geometryOk = false := by
  decide
theorem test_cfg_too_wide_refused : ({ cfgB with hb := 4096, pad := 0, vl := 1 } : Cfg).geometryOk = false := by decide
theorem test_cfg_too_high_refused : ({ cfgB with hb := 1, pad := 0, vl := 32768 } : Cfg).geometryOk = false := by decide
theorem test_cfg_timing_refused :
    [({ cfgB with hTotal := 65536 } : Cfg), { cfgB with hSync := 65536 }, { cfgB with hBack := 65536 },
      { cfgB with vTotal := 65536 }, { cfgB with vSync := 65536 }, { cfgB with vBack := 65536 }].map Cfg.timingOk =
      [false, false, false, false, false, false] := by decide
theorem test_cfg_font_offset_refused : ({ cfgB with fontOffset := 256, font := [] } : Cfg).fontOk = false := by decide
theorem test_cfg_font_count_refused : ({ cfgB with fontOffset := 222 } : Cfg).fontOk = false := by decide
theorem test_cfg_glyph_rows_refused : ({ cfgB with font := [[0x00]] } : Cfg).fontOk = false := by decide
theorem test_cfg_bad_is_refused_by_step : step (idle { cfgB with hb := 0 }) = .refused .badConfiguration := rfl
/-- The words V62 lists as illegal. -/
theorem test_illegal_words_refused :
    [0x0000#16, 0x000F, 0x002F, 0x1001, 0xFFFF, 0x8003].map legalWord = [false, false, false, false, false, false] := by
  decide
theorem test_write_action_outside_refused : (WriteAction.byte 24 .zero).wf cfgB = false := by decide
theorem test_write_action_two_bits_refused : (WriteAction.bit 0 0x81 .set).wf cfgB = false := by decide

/-! ### Decode: every constructor, the words of V60 and others written from R91 as `Z RB RA NR AL ROP OP` -/

theorem test_decode_point : decode 0b0000_00_00_1_0_01_0001 = .ok (.point (nul .xor)) := by decide
theorem test_decode_line : decode 0b0000_00_10_0_0_00_0010 = .ok (.line { Fields.zero with ra := .rc2 }) := by decide
theorem test_decode_rect_ignored_fields :
    decode 0x0FC3 = .ok (.rect { rb := .rc3, ra := .rc3, nr := true, al := .right, rop := .copy }) := by decide
theorem test_decode_rectr : decode 0b0000_00_00_1_0_11_0100 = .ok (.rectr (nul .or)) := by decide
theorem test_decode_bitblt : decode 0b0000_00_00_0_0_10_0101 = .ok (.bitblt (rop .and)) := by decide
theorem test_decode_text :
    decode 0b0000_00_01_0_1_11_0110 = .ok (.text { Fields.zero with ra := .rc1, al := .right, rop := .or }) := by decide
theorem test_decode_texta : decode 0b0000_00_00_0_1_00_0111 = .ok (.texta { Fields.zero with al := .right }) := by decide
theorem test_decode_invline : decode 0x0008 = .ok (.invline Fields.zero) := by decide
theorem test_decode_invtline : decode 0x0009 = .ok (.invtline Fields.zero) := by decide
theorem test_decode_clrtline : decode 0x000A = .ok (.clrtline Fields.zero) := by decide
theorem test_decode_copyrect :
    decode 0b0000_11_00_0_0_00_1011 = .ok (.copyrect { Fields.zero with rb := .rc3 }) := by decide
theorem test_decode_getcrect : decode 0b0000_00_01_0_0_00_1100 = .ok (.getcrect { Fields.zero with ra := .rc1 }) := by
  decide
theorem test_decode_init : decode 0x000D = .ok (.init Fields.zero) := by decide
theorem test_decode_clear : decode 0x000E = .ok (.clear Fields.zero) := by decide
theorem test_decode_illegal_by_name :
    (decode 0x1001, decode 0x0030, decode 0x000F) =
      (.error .reservedBits, .error .opcodeZero, .error .opcodeFifteen) := by decide
/-- V60: the words the command lines of R100 assemble to. -/
theorem test_assembled_words :
    assemble [.point .xor .null, .line .copy (.rc .rc2), .rectr .or .null, .text .or .right (.rc .rc1),
      .copyrect .rc3 .rc0, .copyrect .rc0 .rc3, .getcrect .rc1] =
      [.write 0x00 0x0091, .write 0x00 0x0202, .write 0x00 0x00B4, .write 0x00 0x0176,
        .write 0x00 0x030B, .write 0x00 0x0C0B, .write 0x00 0x010C] := by decide
/-- P2 line 3 and V65: SETRC, and a negative value stored as `wrap16`. -/
theorem test_assembled_registers :
    assemble [.setrc .rc0 8 1 16 8, .wr .x0 (-3)] =
      [.write 0x10 0x0008, .write 0x11 0x0001, .write 0x12 0x0010, .write 0x13 0x0008, .write 0x03 0xFFFD] := by decide
theorem test_table_word : decodeTableWord 16 0x0176 = some (.text { Fields.zero with ra := .rc1, al := .right, rop := .or }) := by
  decide
theorem test_fetch_word_runs :
    (next? (step (State.reset.withFetchWord 16 0x0008))).map (fun s => (s.cmd, s.busy, s.pend.length)) =
      some (0x0008, true, 4) := by decide

/-! ### The commands -/

/-- V1, V0: one write action at the byte and mask of pixel (10, 2). -/
theorem test_point : acts (exec (.point (nul .xor)) { idle cfgB with x0 := 10, y0 := 2 }) = [.bit 7 0x20 .tgl] := by decide
/-- V2, V3: clipped by the display, clipped by a rectangle (x = 8 is one past `RC[0]`). -/
theorem test_point_clipped :
    (acts (exec (.point (nul .copy)) { idle cfgB with x0 := 0xFFFF }),
      acts (exec (.point (rop .copy))
        { idle cfgB with x0 := 8, y0 := 3, rc := { r0 := ⟨4, 0, 4, 8⟩, r1 := .zero, r2 := .zero, r3 := .zero } })) =
      ([], []) := by decide
/-- V5: the sequence of a line depends on its direction. -/
theorem test_line_points :
    (linePoints 0 0 2 1, linePoints 2 1 0 0, linePoints 0 0 (-3) 1) =
      ([(0, 0), (1, 1), (2, 1)], [(2, 1), (1, 0), (0, 0)], [(0, 0), (-1, 0), (-2, 1), (-3, 1)]) := by decide
/-- V9: a line clipped by a rectangle. -/
theorem test_line :
    rowAfter (exec (.line (rop .copy))
      { idle cfgB with
        y0 := 3, x1 := 15, y1 := 3, rc := { r0 := ⟨4, 0, 4, 8⟩, r1 := .zero, r2 := .zero, r3 := .zero } }) 3 =
      [0x0F, 0x00, 0x00] := by decide
/-- V12: the source's scenario with COPY, ten write actions. -/
theorem test_rect :
    acts (exec (.rect (rop .copy)) { idle cfgA with y1 := 3 }) =
      [.bit 0 0x80 .set, .bit 3 0x80 .set, .bit 0 0x80 .set, .bit 1 0x80 .set, .bit 2 0x80 .set, .bit 3 0x80 .set,
        .bit 0 0x80 .set, .bit 1 0x80 .set, .bit 2 0x80 .set, .bit 3 0x80 .set] := by decide
/-- V15: with XOR the corners are toggled twice. -/
theorem test_rect_xor :
    (fun r => (rowAfter r 1, rowAfter r 2)) (exec (.rect (rop .xor)) { idle cfgB with x0 := 1, y0 := 1, x1 := 6, y1 := 5 }) =
      ([0x3C, 0x00, 0x00], [0x42, 0x00, 0x00]) := by decide
/-- V16. -/
theorem test_rectr :
    (fun r => (rowAfter r 1, rowAfter r 2))
      (exec (.rectr (rop .copy)) { idle cfgB with rc := { r0 := ⟨2, 1, 5, 3⟩, r1 := .zero, r2 := .zero, r3 := .zero } }) =
      ([0x3E, 0x00, 0x00], [0x22, 0x00, 0x00]) := by decide
/-- V17: the null rectangle is the whole display. -/
theorem test_rectr_null :
    (fun r => (rowAfter r 0, rowAfter r 6)) (exec (.rectr (nul .copy)) (idle cfgB)) =
      ([0xFF, 0xFF, 0x00], [0x80, 0x01, 0x00]) := by decide
/-- V20: five by three, COPY over 0xCC, start offset 6. -/
theorem test_bitblt :
    rowAfter (exec (.bitblt (rop .copy))
      { idle cfgB with
        fs := [(3, 0xCC), (4, 0xCC), (5, 0xCC)], sm := [(0x100, 0xA8), (0x101, 0x70), (0x102, 0xF8)]
        x0 := 6, y0 := 1, bw := 5, bh := 3, ptr := 0x100 }) 1 = [0xCE, 0xAC, 0xCC] := by decide
/-- V25: bits past the padding land in the next row. -/
theorem test_bitblt_runs_over :
    (fun r => (rowAfter r 0, rowAfter r 1))
      (exec (.bitblt (rop .copy))
        { idle cfgB with sm := [(0x200, 0xFF), (0x201, 0xF0)], x0 := 14, bw := 12, bh := 1, ptr := 0x200 }) =
      ([0x00, 0x03, 0xFF], [0xC0, 0x00, 0x00]) := by decide
/-- V35: height and right side of the rectangle clip the text. -/
theorem test_text :
    (fun r => (rowAfter r 1, rowAfter r 5, (acts r).length))
      (exec (.text (rop .copy))
        { idle cfgC with
          sm := [(0x330, 0x41), (0x331, 0x42), (0x332, 0x41), (0x333, 0x42)], ptr := 0x330, len := 4
          rc := { r0 := ⟨8, 1, 12, 5⟩, r1 := .zero, r2 := .zero, r3 := .zero } }) =
      ([0x00, 0x18, 0x00, 0x00, 0x00], [0x00, 0x42, 0x00, 0x00, 0x00], 40) := by decide +kernel
/-- V30: a character below the font is skipped, the cursor not advanced. -/
theorem test_texta :
    rowAfter (exec (.texta (rop .copy))
      { idle cfgC with sm := [(0x300, 0x41), (0x301, 0x0A), (0x302, 0x42)], ptr := 0x300, len := 3, y0 := 1 }) 1 =
      [0x18, 0x7C, 0x00, 0x00, 0x00] := by decide +kernel
/-- V31: the source's scenario, the glyph starts at column `W - 8`. -/
theorem test_texta_right :
    rowAfter (exec (.texta { Fields.zero with al := .right }) { idle cfgC with sm := [(0x310, 0x41)], ptr := 0x310, len := 1 }) 0 =
      [0x00, 0x00, 0x00, 0x18, 0x00] := by decide +kernel
/-- V50: the padding byte is not touched. -/
theorem test_invline :
    rowAfter (exec (.invline (rop .copy)) { idle cfgB with fs := [(6, 6), (7, 7), (8, 8)], y0 := 2 }) 2 =
      [0xF9, 0xF8, 0x08] := by decide
/-- V51: the rows of the band below the display are skipped. -/
theorem test_invtline :
    acts (exec (.invtline (rop .copy)) { idle cfgB with y0 := 5 }) =
      [.byte 15 .inv, .byte 16 .inv, .byte 18 .inv, .byte 19 .inv, .byte 21 .inv, .byte 22 .inv] := by decide
/-- V52: a band that starts above the display. -/
theorem test_clrtline :
    acts (exec (.clrtline (rop .copy)) { idle cfgB with y0 := 0xFFFD }) =
      [.byte 0 .zero, .byte 1 .zero, .byte 3 .zero, .byte 4 .zero, .byte 6 .zero, .byte 7 .zero, .byte 9 .zero,
        .byte 10 .zero, .byte 12 .zero, .byte 13 .zero] := by decide
/-- V55: word 0x030B copies `RC[0]` to `RC[3]`; `BUSY` stays 0. -/
theorem test_copyrect :
    (next? (writeReg { idle cfgB with rc := { r0 := ⟨2, 1, 5, 3⟩, r1 := .zero, r2 := .zero, r3 := .zero } } 0x00 0x030B)).map
      (fun s => (s.rc.r3, s.busy)) = some (⟨2, 1, 5, 3⟩, false) := by decide
/-- V56: the display of configuration B is 16 by 8. -/
theorem test_getcrect :
    (next? (writeReg (idle cfgB) 0x00 0x010C)).map (fun s => s.rc.r1) = some ⟨0, 0, 16, 8⟩ := by decide
/-- V57: `STATUS` after INIT reads 0x00C4. -/
theorem test_init :
    (next? (exec (.init (rop .copy)) { open_ cfgT with fs := [(0, 0x55)], ill := true, row := 2, src := 4, hcnt := 3 })).map
      (fun s => (statusWord s, s.fs, s.result, s.row, s.src)) = some (0x00C4, [], 0, 0, 0) := by decide
/-- V58: a period of 0. -/
theorem test_init_period_zero :
    (next? (exec (.init (rop .copy)) (idle { cfgT with hTotal := 0 }))).map (fun s => (s.result, s.run, statusWord s)) =
      some (1, false, 0x0000) := by decide
/-- V54 in configuration A. -/
theorem test_clear :
    acts (exec (.clear (rop .copy)) (idle cfgA)) = [.byte 0 .zero, .byte 1 .zero, .byte 2 .zero, .byte 3 .zero] := by decide

/-! ### The units -/

/-- V40, tick 12: the frame event. -/
theorem test_tick_frame_event :
    (fun s => (s.vsync, s.test, s.hcnt, s.vcnt)) (tick { idle cfgT with run := true, vcnt := 2 }) =
      (true, .idle, 1, 2) := by decide
/-- V45, tick 0: both events on one tick, the frame event first; and the wrap of both counters. -/
theorem test_tick_both_events :
    (fun s => (s.vsync, s.test))
      (tick { idle { cfgT with hSync := 0, hBack := 0, vSync := 0, vBack := 0 } with run := true }) = (true, .armed) := by
  decide
theorem test_tick_wraps :
    (fun s => (s.hcnt, s.vcnt)) (tick { idle cfgT with run := true, hcnt := 5, vcnt := 6 }) = (0, 0) := by decide
/-- V40: the second byte of row 1 goes out. -/
theorem test_shift :
    (next? (teStep { open_ cfgT with test := .active, row := 1, src := 2, k := 1, fs := [(3, 0x42)] })).map
      (fun s => (s.vout, s.k)) = some ([⟨1, 1, 0x42⟩], 2) := by decide
/-- V40, after tick 32: the wrap. -/
theorem test_complete_wraps :
    (next? (teStep { open_ cfgT with test := .complete, row := 3, src := 6, k := 2 })).map
      (fun s => (s.row, s.src, s.vsync, s.test)) = some (0, 0, false, .idle) := by decide
/-- V0: the bit order on the wire. -/
theorem test_video_bits : videoBits 0x81 = [true, false, false, false, false, false, false, true] := by decide
/-- V70: the gate. -/
theorem test_gate :
    ((next? (deStep { idle cfgB with busy := true, pend := [.bit 7 0x20 .set] })).map (fun s => s.fs),
      (next? (deStep { open_ cfgB with busy := true, pend := [.bit 7 0x20 .set] })).map (fun s => (s.fs, s.pend))) =
      (some [], some ([(7, 0x20)], [])) := by decide
/-- A write of what an unlisted byte reads as removes the entry. -/
theorem test_write_removes : (State.fsPut { idle cfgB with fs := [(3, 1), (7, 2)] } 3 0).fs = [(7, 2)] := by decide
/-- P3, lines 12 and 13: an illegal word sets `ILL`, seen in `STATUS`. -/
theorem test_illegal_word :
    (next? (writeReg (open_ { cfgT with hSync := 0, vSync := 0 }) 0x00 0x1001)).map (fun s => (s.cmd, statusWord s)) =
      some (0x1001, 0x0026) := by decide
/-- The HOST reads `RC[1].h`, index 0x17; the model records it. -/
theorem test_host_read :
    (next? (hostStep { idle cfgB with inbox := [.read 0x17], rc := { r0 := .zero, r1 := ⟨0, 0, 16, 8⟩, r2 := .zero, r3 := .zero } })).map
      (fun s => s.reads) = some [⟨0x17, 8⟩] := by decide
/-- WAIT stays while `BUSY = 1`. -/
theorem test_wait_stays :
    (next? (hostStep { idle cfgB with inbox := [.wait], busy := true })).map (fun s => (s.inbox, s.reads)) =
      some ([.wait], [⟨1, 1⟩]) := by decide
/-- Reset keeps what is not the block's. -/
theorem test_reset :
    (next? (hostStep { open_ cfgB with inbox := [.reset, .wait], busy := true, sm := [(1, 1)], x0 := 5 })).map
      (fun s => (s.busy, s.x0, s.sm, s.inbox)) = some (false, 0, [(1, 1)], [HostAct.wait]) := by decide

/-- BITBLT at (0, 3) of a four row display reads bytes 0x10 and 0x11 of its bitmap (R200, R203). -/
theorem test_bitmapReads :
    (List.range 6).map (fun i => bitmapReads cfgT 0 3 9 2 0x10 (0x0F + i)) = [false, true, true, false, false, false] := by decide
/-- On the last row of a two byte wide store a byte past `FS_BYTES` is dropped and not read; the bitmap may wrap (R63). -/
theorem test_bitmapReads_edges :
    (List.range 3).map (fun i => bitmapReads cfgT 0 3 24 1 0x10 (0x10 + i)) = [true, true, false] ∧
      bitmapReads cfgT 0 0 8 2 0xFFFF 0 = true ∧ bitmapReads cfgT 8 0 8 2 0 0 = false := by decide

/-! ### The hypotheses of the statements are met -/

/-- A running block between rows, the gate open, a byte drawn. -/
def sOpen : State := { open_ cfgT with fs := [(2, 0x42)], hcnt := 3, vcnt := 2 }
/-- A row armed, on its last shift, complete, and complete on the last row. -/
def sArmed : State := { sOpen with test := .armed, row := 1, src := 2, sched := [.te, .te, .te, .te, .te, .tg] }
def sFirst : State := { sOpen with test := .active, row := 1, src := 2, k := 0, sched := [.te] }
def sLast : State := { sOpen with test := .active, row := 1, src := 2, k := 1, sched := [.te] }
def sDone : State := { sOpen with test := .complete, row := 1, src := 2, k := 2, sched := [.te] }
def sWrap : State := { sOpen with test := .complete, row := 3, src := 6, k := 2, sched := [.te] }
/-- A command with two pending writes, the gate open. -/
def sDraw : State :=
  { sOpen with cmd := 0x0008, busy := true, pend := [.bit 2 0x80 .set, .byte 6 .inv], sched := [.de, .de, .de, .tg] }
/-- The same before INIT: stuck. -/
def sStuck : State :=
  { State.resetOf cfgT with cmd := 0x0081, busy := true, pend := [.bit 0 0x40 .set], sched := [.de] }
/-- The tick of the frame event comes next. -/
def sFrame : State := { idle cfgT with run := true, vcnt := 2, sched := [.tg] }
/-- A running TEXT of one character, and a running BITBLT of nine by two pixels. -/
def sText : State :=
  { sOpen with cmd := 0x0006, busy := true, ptr := 0xFFFF, len := 1, pend := [], inbox := [.smWrite 0xFFFF 1], sched := [.host] }
def sBlit : State := { sOpen with cmd := 0x0005, busy := true, ptr := 0x10, bw := 9, bh := 2 }
/-- The same BITBLT on the last row of the display. -/
def sLow : State := { sBlit with y0 := 3 }
/-- The schedule that gives the four agents their turns in rotation. -/
def inRotation (n : Nat) : Agent :=
  match n % 4 with
  | 0 => .host
  | 1 => .tg
  | 2 => .te
  | _ => .de

theorem inv_sOpen : Inv sOpen := by constructor <;> decide
theorem inv_sArmed : Inv sArmed := by constructor <;> decide
theorem inv_sFirst : Inv sFirst := by constructor <;> decide
theorem inv_sLast : Inv sLast := by constructor <;> decide
theorem inv_sDone : Inv sDone := by constructor <;> decide
theorem inv_sWrap : Inv sWrap := by constructor <;> decide
theorem inv_sDraw : Inv sDraw := by constructor <;> decide
theorem inv_sStuck : Inv sStuck := by constructor <;> decide
theorem inv_sFrame : Inv sFrame := by constructor <;> decide
theorem inv_sText : Inv sText := by constructor <;> decide

theorem witness_EncodeDecodeRoundTrip : decode 0x0FFE = .ok (.clear { rb := .rc3, ra := .rc3, nr := true, al := .right, rop := .or }) := by
  decide
theorem witness_DecodeReadsEveryField :
    ((0x1001#16).toNat / 4096 ≠ 0 ∧ (0x0FF0#16).toNat % 16 = 0 ∧ (0x0FFF#16).toNat % 16 = 15) ∧
      ((0x0FFE#16).toNat / 4096 = 0 ∧ (0x0FFE#16).toNat % 16 ≠ 0 ∧ (0x0FFE#16).toNat % 16 ≠ 15) := by decide
theorem witness_IgnoredFieldsHaveNoEffect :
    (Instr.rect (rop .xor)).canonical = (Instr.rect { rb := .rc3, ra := .rc3, nr := true, al := .right, rop := .xor }).canonical ∧
      (idle cfgB).busy = false ∧ (∀ v, HostLine.rect .xor ≠ .wr .cmd v) ∧
      HostAct.write 0x00 0x0013 ∈ (HostLine.rect .xor).expand :=
  ⟨rfl, rfl, by simp, by decide⟩
theorem witness_StepRunsDecodedCommand :
    (fun s : State => s.cfg.wf = true ∧ nextAgent s = .host ∧ s.inbox = [.write 0x00 0x0008]) (State.reset.withFetchWord 16 8) ∧
      decode 0x0008 = .ok (.invline Fields.zero) := by decide
theorem witness_IllegalWordIsStoredAndFlagged :
    (idle cfgB).busy = false ∧ (0x1001#16).toNat / 4096 ≠ 0 ∧ (0x0000#16).toNat % 16 = 0 ∧ (0x000F#16).toNat % 16 = 15 := by
  decide
theorem witness_IllegalWordIsStoredAndFlagged_cleared :
    (fun s : State => s.ill = true ∧ (next? (step s)).map (fun t => t.ill) = some false)
      { open_ cfgT with ill := true, inbox := [.write 0x00 0x000D], sched := [.host] } := by decide
theorem witness_HostAccessRule :
    ({ idle cfgB with inbox := [.read 0x1F] } : State).inbox = [.read 0x1F] ∧
      (0x01#5).toNat ∈ [0x01, 0x02, 0x0B, 0x0C, 0x0D, 0x0E, 0x0F] ∧ sDraw.busy = true ∧ (idle cfgB).busy = false ∧
      (0x03#5).toNat ∉ [0x00, 0x01, 0x02, 0x0B, 0x0C, 0x0D, 0x0E, 0x0F] ∧
      (0x0A#5).toNat ∉ [0x00, 0x01, 0x02, 0x0B, 0x0C, 0x0D, 0x0E, 0x0F] ∧
      (0x10#5).toNat ∉ [0x00, 0x01, 0x02, 0x0B, 0x0C, 0x0D, 0x0E, 0x0F] ∧
      (0x1F#5).toNat ∉ [0x00, 0x01, 0x02, 0x0B, 0x0C, 0x0D, 0x0E, 0x0F] := by decide
theorem witness_RegisterWritesStore : (idle cfgB).busy = false := by decide
theorem witness_BusyBlockIgnoresEveryLaunch : sDraw.busy = true := by decide
theorem witness_StatusReflectsTheState : ({ sDraw with inbox := [.read 0x01] } : State).inbox = [.read 0x01] := by decide
theorem witness_WaitPollsUntilIdle : ({ sDraw with inbox := [.wait] } : State).inbox = [.wait] := by decide
theorem witness_SourceMemoryReadsBack :
    Memory.wf smUnwritten ({ idle cfgB with sm := [(0, 1), (65535, 2)] } : State).sm ∧ (idle cfgB).busy = false := by decide
theorem witness_SourceMemoryInUseIsRefused_text :
    sText.busy = true ∧ decode sText.cmd = .ok (.text Fields.zero) ∧ 0 < sText.len.toNat ∧
      0xFFFF#16 = BitVec.ofNat 16 (sText.ptr.toNat + 0) ∧ (1 : Byte) ≠ smRead sText (0xFFFF#16).toNat := by decide
theorem witness_SourceMemoryInUseIsRefused_text_outside :
    ∀ i, i < sText.len.toNat → 0x0000#16 ≠ BitVec.ofNat 16 (sText.ptr.toNat + i) := by decide
theorem witness_SourceMemoryInUseIsRefused_bitblt :
    sBlit.busy = true ∧ decode sBlit.cmd = .ok (.bitblt Fields.zero) ∧
      bltDraws sBlit.cfg (s16 sBlit.x0) (s16 sBlit.y0) (s16 sBlit.bw) (s16 sBlit.bh) 1 8 ∧
      0x13#16 = BitVec.ofNat 16 (sBlit.ptr.toNat + 1 * (stride (s16 sBlit.bw)).toNat + 8 / 8) ∧
      (1 : Byte) ≠ smRead sBlit (0x13#16).toNat := by decide
/-- Drawn on the last row, the bitmap's second row is below the bottom edge and none of its bytes is read. -/
theorem witness_SourceMemoryInUseIsRefused_bitblt_outside :
    ∀ r j, bltDraws sLow.cfg (s16 sLow.x0) (s16 sLow.y0) (s16 sLow.bw) (s16 sLow.bh) r j →
      0x12#16 ≠ BitVec.ofNat 16 (sLow.ptr.toNat + r * (stride (s16 sLow.bw)).toNat + j / 8) := by
  rintro r j ⟨hr, hj, -, -, -, hb, -⟩
  have h0 : r = 0 := by
    have : (3 : Int) + r < 4 := hb
    omega
  have h1 : (j : Int) < 9 := hj
  subst h0
  have : j / 8 = 0 ∨ j / 8 = 1 := by omega
  rcases this with h | h <;> rw [h] <;> decide
theorem witness_SourceMemoryInUseIsRefused_other :
    sDraw.busy = true ∧ decode sDraw.cmd = .ok (.invline Fields.zero) ∧ (idle cfgB).busy = false := by decide
theorem witness_ResetLeavesItsValues : ({ sDraw with inbox := [.reset] } : State).inbox = [.reset] := by decide
theorem witness_InvHoldsAtReset : cfgB.wf = true := by decide
theorem witness_StepKeepsInv : Inv sDraw ∧ ∃ t, step sDraw = .next t := ⟨inv_sDraw, _, rfl⟩
theorem witness_ReachableStatesMeetRule39 :
    cfgT.wf = true ∧ Memory.wf smUnwritten [(7, 1)] ∧ (∀ e ∈ [((7, 1) : Host.Cell)], e.1 < 65536) ∧
      ∃ t, Host.Core.run core 2 (startState cfgT [.write 0x00 0x000D] [.host, .tg] [(7, 1)]) = .next t :=
  ⟨by decide, by decide, by decide, _, rfl⟩
theorem witness_StepNeverFaults : Inv sDraw := inv_sDraw
/-- The one refusal a step of the invariant's states has does happen. -/
theorem witness_StepNeverFaults_refusal : Inv sText ∧ step sText = .refused (.sourceMemoryInUse 0xFFFF) :=
  ⟨inv_sText, rfl⟩
theorem witness_TickFollowsItsRule : sStuck.run = false ∧ sOpen.run = true := by decide
theorem witness_TicksCountThePosition :
    (idle cfgT).cfg.wf = true ∧ 0 < (idle cfgT).cfg.hTotal ∧ 0 < (idle cfgT).cfg.vTotal ∧ (idle cfgT).hcnt = 0 ∧
      (idle cfgT).vcnt = 0 := by decide
theorem witness_VsyncRisesOnlyAtTheFrameEvent :
    Inv sFrame ∧ sFrame.vsync = false ∧ ∃ t, step sFrame = .next t ∧ t.vsync = true :=
  ⟨inv_sFrame, rfl, _, rfl, rfl⟩
theorem witness_VsyncFallsOnlyAtTheWrap :
    sWrap.vsync = true ∧ ∃ t, step sWrap = .next t ∧ t.vsync = false := ⟨rfl, _, rfl, rfl⟩
theorem witness_VsyncFallsOnlyAtTheWrap_init :
    (fun s : State => s.vsync = true ∧ ∃ t, step s = .next t ∧ t.vsync = false)
      { sOpen with sched := [.host], inbox := [.write 0x00 0x000D] } := ⟨rfl, _, rfl, rfl⟩
theorem witness_VsyncFallsOnlyAtTheWrap_reset :
    (fun s : State => s.vsync = true ∧ ∃ t, step s = .next t ∧ t.vsync = false)
      { sOpen with sched := [.host], inbox := [.reset] } := ⟨rfl, _, rfl, rfl⟩
theorem witness_ArmedEngineStarts : sArmed.test = .armed := by decide
theorem witness_ActiveEngineShifts :
    (Inv sFirst ∧ sFirst.test = .active ∧ sFirst.k < sFirst.cfg.cols) ∧
      (Inv sLast ∧ sLast.test = .active ∧ sLast.k < sLast.cfg.cols) :=
  ⟨⟨inv_sFirst, rfl, by decide⟩, inv_sLast, rfl, by decide⟩
theorem witness_LastByteRaisesComplete :
    ({ sLast with k := 2 } : State).test = .active ∧ ({ sLast with k := 2 } : State).k = sLast.cfg.cols := by decide
theorem witness_CompleteAdvancesOrWraps :
    (Inv sWrap ∧ sWrap.test = .complete ∧ sWrap.row.toNat + 1 = sWrap.cfg.vl) ∧
      (Inv sDone ∧ sDone.test = .complete ∧ sDone.row.toNat + 1 ≠ sDone.cfg.vl) :=
  ⟨⟨inv_sWrap, rfl, by decide⟩, inv_sDone, rfl, by decide⟩
theorem witness_TransferEngineOnlyReads : Inv sLast ∧ ∃ t, teStep sLast = .next t := ⟨inv_sLast, _, rfl⟩
theorem witness_WholeRowGoesOut :
    Inv sArmed ∧ sArmed.test = .armed ∧ sArmed.sched = List.replicate (sArmed.cfg.cols + 3) .te ++ [.tg] :=
  ⟨inv_sArmed, rfl, by decide⟩
theorem witness_ArmWhileBusyIsLost : sArmed.run = true ∧ sArmed.test ≠ .idle := by decide
theorem witness_WriteStepPerformsTheFirstAction :
    (sStuck.busy = true ∧ sStuck.pend = [.bit 0 0x40 .set] ∧ sStuck.vsync = false) ∧
      (Inv sDraw ∧ sDraw.busy = true ∧ sDraw.pend = .bit 2 0x80 .set :: [.byte 6 .inv] ∧ sDraw.vsync = true) :=
  ⟨by decide, inv_sDraw, by decide⟩
theorem witness_FinishClearsBusy : sText.busy = true ∧ sText.pend = [] := by decide
theorem witness_PictureChangesOnlyThroughTheGate :
    Inv sDraw ∧ ∃ t, step sDraw = .next t ∧ t.fsByte 2 ≠ sDraw.fsByte 2 := ⟨inv_sDraw, _, rfl, by decide⟩
theorem witness_CommandRunsToCompletion :
    Inv sDraw ∧ sDraw.busy = true ∧ sDraw.vsync = true ∧
      sDraw.sched = List.replicate (sDraw.pend.length + 1) .de ++ [.tg] := ⟨inv_sDraw, by decide⟩
theorem witness_StuckUntilReset :
    Inv sStuck ∧ sStuck.run = false ∧ sStuck.vsync = false ∧ sStuck.busy = true ∧ sStuck.pend ≠ [] ∧ ¬ hostResets sStuck ∧
      ∃ t, step sStuck = .next t :=
  ⟨inv_sStuck, rfl, rfl, rfl, by decide, fun h => by simp [hostResets, sStuck, nextAgent] at h, _, rfl⟩
theorem witness_OperandsOutliveTheCommand :
    (∃ t, exec (.init Fields.zero) sOpen = .next t) ∧ sStuck.busy = true ∧ ¬ hostResets sStuck ∧
      ∃ t, step sStuck = .next t :=
  ⟨⟨_, rfl⟩, rfl, fun h => by simp [hostResets, sStuck, nextAgent] at h, _, rfl⟩
theorem witness_PointLaunches : (idle cfgB).busy = false := by decide
theorem witness_PointDrawsOnePixel :
    (Inv sOpen ∧ inside sOpen.cfg 7 3 = true ∧ inrect (some ⟨7, 3, 1, 1⟩) 7 3 = true) ∧ 15 < 8 * sOpen.cfg.cols ∧
      3 < sOpen.cfg.vl := ⟨⟨inv_sOpen, by decide⟩, by decide⟩
theorem witness_LineLaunches : (idle cfgB).busy = false := by decide
theorem witness_HorizontalLineSetsItsPixels :
    Inv sOpen ∧ 0 < sOpen.cfg.pixelsX ∧ 7 < sOpen.cfg.pixelsX ∧ 3 < sOpen.cfg.pixelsY ∧ 15 < 8 * sOpen.cfg.cols ∧
      3 < sOpen.cfg.vl := ⟨inv_sOpen, by decide⟩
theorem witness_RectLaunches : (idle cfgB).busy = false := by decide
theorem witness_RectrLaunches : (idle cfgB).busy = false := by decide
theorem witness_XorTwiceRestores : Inv sOpen := inv_sOpen
theorem witness_BitbltLaunches : (idle cfgB).busy = false := by decide
theorem witness_BlitRasterOps : (7 : Nat) < 8 := by decide
theorem witness_TextLaunches : (idle cfgC).busy = false := by decide
theorem witness_TextaLaunches : (idle cfgC).busy = false := by decide
theorem witness_TextDrawsTheCellsThatFit : ∀ ch ∈ ([32, 65, 66] : List Byte), printable cfgC ch = true := by decide
theorem witness_OnlyBitbltAndClearReachPadding :
    cfgC.wf = true ∧ WriteAction.bit 3 0x01 .set ∈ pointActs cfgC none 31 0 .copy ∧
      WriteAction.bit 3 0x01 .set ∈ lineActs cfgC none 30 0 32 0 .copy ∧
      WriteAction.bit 3 0x01 .set ∈ rectActs cfgC 31 0 31 0 .copy ∧
      WriteAction.bit 3 0x01 .set ∈ rectrActs cfgC (some ⟨31, 0, 1, 1⟩) .copy ∧
      WriteAction.bit 3 0x01 .clr ∈ textActs cfgC none [66] .right .copy ∧
      WriteAction.bit 3 0x01 .clr ∈ textaActs cfgC 24 0 [66] .copy .left ∧
      WriteAction.byte 3 .inv ∈ rowsActs cfgC 0 1 .inv := by decide +kernel
theorem witness_RowCommandsLaunch : (idle cfgB).busy = false := by decide
theorem witness_RowBandChangesItsVisibleBytes :
    Inv sOpen ∧ (3 < sOpen.cfg.vl ∧ 0 < sOpen.cfg.cols) ∧ (0 < sOpen.cfg.vl ∧ 1 < sOpen.cfg.cols) :=
  ⟨inv_sOpen, by decide⟩
theorem witness_CopyrectCopies : (idle cfgB).busy = false := by decide
theorem witness_GetcrectLoadsTheDisplay : (idle cfgB).cfg.wf = true ∧ (idle cfgB).busy = false := by decide
theorem witness_InitRestartsTheBlock :
    sDraw.busy = true ∧ (idle cfgT).busy = false ∧ (idle cfgT).cfg.hTotal ≠ 0 ∧ (idle cfgT).cfg.vTotal ≠ 0 ∧
      (idle { cfgT with vTotal := 0 }).busy = false ∧ (idle { cfgT with vTotal := 0 }).cfg.vTotal = 0 ∧
      (idle { cfgT with hTotal := 0 }).cfg.hTotal = 0 := by decide
theorem witness_ClearZeroesEveryByte : (idle cfgB).busy = false ∧ Inv sOpen ∧ 7 < sOpen.cfg.fsBytes :=
  ⟨rfl, inv_sOpen, by decide⟩
/-- Turns in rotation are weakly fair from every state: every agent takes one in every four. -/
theorem inRotation_weaklyFair (s : State) : weaklyFair inRotation s := by
  intro a n _
  cases a
  · exact ⟨4 * n, by omega, by simp [inRotation]⟩
  · exact ⟨4 * n + 1, by omega, by simp [inRotation, Nat.add_mod]⟩
  · exact ⟨4 * n + 2, by omega, by simp [inRotation, Nat.add_mod]⟩
  · exact ⟨4 * n + 3, by omega, by simp [inRotation, Nat.add_mod]⟩
theorem witness_WeaklyFairSchedulesFinish :
    enabled .de (idle cfgB) = false ∧ Inv sArmed ∧ sArmed.inbox = [] ∧ weaklyFair inRotation sArmed ∧ sArmed.test = .armed ∧
      sArmed.pend = [] :=
  ⟨rfl, inv_sArmed, rfl, inRotation_weaklyFair _, rfl, rfl⟩

end Sys2Proof.Tests
end

section
/-! The write list of every command holds only actions as R162 describes them. -/
namespace Sys2Proof.Machine

/-- Byte column `b` of display row `y` has an address in the Frame Store (R61). -/
theorem rowByte_lt_fsBytes {c : Cfg} {y b : Nat} (hy : y < c.vl) (hb : b < c.cols) : y * c.cols + b < c.fsBytes :=
  calc y * c.cols + b < (y + 1) * c.cols := by rw [Nat.succ_mul]; omega
    _ ≤ c.vl * c.cols := Nat.mul_le_mul_right _ hy

theorem pixMask_mem_oneBitMasks (x : Nat) : pixMask x ∈ oneBitMasks := by
  have hmasks : ∀ k < 8, 0x80#8 >>> k ∈ oneBitMasks := by decide
  exact hmasks _ (Nat.mod_lt x (by decide))

theorem bit_pixMask_wf {c : Cfg} {a x : Nat} {f : BitFn} (ha : a < c.fsBytes) :
    (WriteAction.bit a (pixMask x) f).wf c = true := by
  simp [WriteAction.wf, WriteAction.address, ha, pixMask_mem_oneBitMasks]

theorem byte_wf {c : Cfg} {a : Nat} {g : ByteFn} (ha : a < c.fsBytes) : (WriteAction.byte a g).wf c = true := by
  simp [WriteAction.wf, WriteAction.address, ha]

variable {c : Cfg} {w : WriteAction}

theorem pointActs_wf {r : Option Rect} {x y : Int} {rop : RasterOp} (h : w ∈ pointActs c r x y rop) : w.wf c = true := by
  unfold pointActs at h
  split at h
  · rename_i hin
    simp only [inside, Bool.and_eq_true, decide_eq_true_eq] at hin
    obtain ⟨⟨⟨⟨hx0, hx⟩, hy0⟩, hy⟩, -⟩ := hin
    unfold Cfg.pixelsX at hx
    unfold Cfg.pixelsY at hy
    rw [List.mem_singleton.1 h]
    have hrow : y.toNat < c.vl := by omega
    have hcol : x.toNat / 8 < c.cols := by
      unfold Cfg.cols
      omega
    exact bit_pixMask_wf (rowByte_lt_fsBytes hrow hcol)
  · simp at h

theorem lineActs_wf {r : Option Rect} {x0 y0 x1 y1 : Int} {rop : RasterOp} (h : w ∈ lineActs c r x0 y0 x1 y1 rop) :
    w.wf c = true := by
  obtain ⟨p, -, hp⟩ := List.mem_flatMap.1 h
  exact pointActs_wf hp

theorem rectActs_wf {x0 y0 x1 y1 : Int} {rop : RasterOp} (h : w ∈ rectActs c x0 y0 x1 y1 rop) : w.wf c = true := by
  simp only [rectActs, List.mem_append] at h
  obtain ((h | h) | h) | h := h <;> exact lineActs_wf h

theorem bltRow_wf {x y n : Nat} {bits : Nat → Bool} {rop : RasterOp} (h : w ∈ bltRow c x y n bits rop) :
    w.wf c = true := by
  obtain ⟨j, -, hj⟩ := List.mem_filterMap.1 h
  split at hj
  · obtain rfl := Option.some.inj hj
    exact bit_pixMask_wf ‹_›
  · simp at hj

theorem bltRows_wf {x y n : Nat} {src : Nat → Nat → Bool} {rop : RasterOp} {rows r : Nat}
    (h : w ∈ bltRows c x y n src rop rows r) : w.wf c = true := by
  induction rows generalizing r with
  | zero => simp [bltRows] at h
  | succ rows ih =>
    unfold bltRows at h
    split at h
    · simp at h
    · exact (List.mem_append.1 h).elim bltRow_wf ih

theorem bltActs_wf {x y n m : Int} {src : Nat → Nat → Bool} {rop : RasterOp} (h : w ∈ bltActs c x y n m src rop) :
    w.wf c = true := by
  unfold bltActs at h
  split at h
  · simp at h
  · split at h
    · simp at h
    · exact bltRows_wf h

theorem textRun_wf {y gh xlim : Int} {rop : RasterOp} {chars : List Byte} {xc : Int}
    (h : w ∈ textRun c y gh xlim rop chars xc) : w.wf c = true := by
  induction chars generalizing xc with
  | nil => simp [textRun] at h
  | cons ch rest ih =>
    unfold textRun at h
    split at h
    · exact ih h
    · split at h
      · simp at h
      · exact (List.mem_append.1 h).elim bltActs_wf ih

theorem textActs_wf {r : Option Rect} {chars : List Byte} {al : Align} {rop : RasterOp}
    (h : w ∈ textActs c r chars al rop) : w.wf c = true := by
  unfold textActs at h
  split at h <;> exact textRun_wf h

theorem rowsActs_wf {y : Int} {n : Nat} {g : ByteFn} (h : w ∈ rowsActs c y n g) : w.wf c = true := by
  obtain ⟨i, -, hi⟩ := List.mem_flatMap.1 h
  unfold rowActs at hi
  split at hi
  · rename_i hy
    obtain ⟨k, hk, rfl⟩ := List.mem_map.1 hi
    unfold Cfg.pixelsY at hy
    have hcol : k < c.cols := Nat.lt_of_lt_of_le (List.mem_range.1 hk) (Nat.le_add_right _ _)
    exact byte_wf (rowByte_lt_fsBytes (by omega) hcol)
  · simp at hi

theorem clearActs_wf (h : w ∈ clearActs c) : w.wf c = true := by
  obtain ⟨a, ha, rfl⟩ := List.mem_map.1 h
  exact byte_wf (List.mem_range.1 ha)

theorem commandWrites_wf {i : Instr} {s : State} (h : w ∈ commandWrites i s) : w.wf s.cfg = true := by
  cases i with
  | point f => exact pointActs_wf h
  | line f => exact lineActs_wf h
  | rect f => exact rectActs_wf h
  | rectr f => exact rectActs_wf h
  | bitblt f => exact bltActs_wf h
  | text f => exact textActs_wf h
  | texta f => exact textRun_wf h
  | invline f | invtline f | clrtline f => exact rowsActs_wf h
  | clear f => exact clearActs_wf h
  | copyrect f | getcrect f | init f => simp [commandWrites] at h

end Sys2Proof.Machine
end

section
/-! Every turn of every agent keeps the invariant (R39). -/
namespace Sys2Proof.Machine

variable {s t : State}

theorem Inv.vl_pos (h : Inv s) : 0 < s.cfg.vl := Nat.zero_lt_of_lt h.rowInRange

/-- The cursor's row lies in the Frame Store with every byte of it (R23, R60). -/
theorem Inv.transferByte_lt (h : Inv s) {k : Nat} (hk : k < s.cfg.cols) : s.src.toNat + k < s.cfg.fsBytes := by
  rw [h.srcOfRow]
  exact rowByte_lt_fsBytes h.rowInRange hk

/-- The bounds of R5 and R7 that keep the cursor inside its 16-bit registers. -/
theorem Cfg.geometry_of_wf {c : Cfg} (h : c.wf = true) : 0 < c.cols ∧ c.fsBytes ≤ 65536 ∧ c.vl ≤ 32767 := by
  simp only [Cfg.wf, Cfg.geometryOk, Bool.and_eq_true, decide_eq_true_eq] at h
  obtain ⟨⟨⟨⟨⟨⟨hhb, -⟩, hfs⟩, -⟩, hvl⟩, -⟩, -⟩ := h
  exact ⟨Nat.add_pos_left hhb _, hfs, hvl⟩

theorem Inv.address_lt (h : Inv s) {w : WriteAction} (hw : w ∈ s.pend) : w.address < s.cfg.fsBytes := by
  have hwf := h.pendWf w hw
  simp only [WriteAction.wf, Bool.and_eq_true, decide_eq_true_eq] at hwf
  exact hwf.1

/-- Nothing of the invariant is about the turn counter or the schedule (log 3). -/
theorem Inv.scheduled (h : Inv s) (l : List Agent) (n : Nat) : Inv { s with sched := l, turn := n } := { h with }

/-! ### The HOST -/

theorem Inv.videoInit (h : Inv s) : Inv (videoInit s) := by
  have hperiods : periodError s.cfg = false → 0 < s.cfg.hTotal ∧ 0 < s.cfg.vTotal := by
    simp only [periodError, Bool.or_eq_false_iff, decide_eq_false_iff_not]
    omega
  exact { h with
    fsCanonical := Memory.wf_nil
    fsInRange := by simp
    rowInRange := h.vl_pos
    srcOfRow := by simp
    kInRange := Nat.zero_le _
    kOfIdle := fun _ => rfl
    kOfComplete := by simp
    hcntInRange := by simp
    vcntInRange := by simp
    runPeriods := by simpa using hperiods
    vsyncLow := fun _ => ⟨rfl, rfl⟩
    resultCode := by
      rw [videoInit_result]
      split
      · exact .inr rfl
      · exact .inl rfl
    beforeInit := by simp }

theorem Inv.applyReset (h : Inv s) : Inv (applyReset s) where
  cfgWf := h.cfgWf
  fsCanonical := Memory.wf_nil
  fsInRange := by simp
  smCanonical := h.smCanonical
  smInRange := h.smInRange
  rowInRange := h.vl_pos
  srcOfRow := by simp
  kInRange := Nat.zero_le _
  kOfIdle := fun _ => rfl
  kOfComplete := by simp
  hcntInRange := by simp
  vcntInRange := by simp
  runPeriods := by simp
  pendOfBusy := fun _ => rfl
  pendWf := by simp
  vsyncLow := fun _ => ⟨rfl, rfl⟩
  resultCode := .inl rfl
  beforeInit := fun _ => ⟨rfl, rfl, rfl⟩

theorem Inv.putReg (h : Inv s) (i : BitVec 5) (v : Word) : Inv (putReg s i v) := by
  unfold Machine.putReg
  split <;> exact { h with }

theorem Inv.exec (h : Inv s) {i : Instr} (hx : exec i s = .next t) : Inv t := by
  rw [exec_eq] at hx
  split at hx
  · rename_i e he
    obtain ⟨-, rfl⟩ | ⟨-, rfl⟩ := launchImmediate_next.1 hx
    · exact h
    · cases i with
      | copyrect f | getcrect f =>
        obtain rfl := Option.some.inj he
        exact { h with }
      | init f =>
        obtain rfl := Option.some.inj he
        exact Inv.videoInit (s := { s with cmd := _ }) { h with }
      | _ => simp [immediateEffect] at he
  · obtain ⟨-, rfl⟩ | ⟨-, rfl⟩ := launchDrawing_next.1 hx
    · exact h
    · exact { h with pendOfBusy := by simp, pendWf := fun w hw => commandWrites_wf hw }

theorem Inv.launchIllegal (h : Inv s) (w : Word) : Inv (launchIllegal w s) := by
  unfold Machine.launchIllegal
  split
  · exact h
  · exact { h with }

theorem Inv.writeReg (h : Inv s) {i : BitVec 5} {v : Word} (hx : writeReg s i v = .next t) : Inv t := by
  obtain ⟨-, hx⟩ | ⟨-, -, rfl⟩ | ⟨-, -, rfl⟩ := writeReg_next hx
  · obtain ⟨c, -, hx⟩ | ⟨-, rfl⟩ := writeCmd_next hx
    · exact h.exec hx
    · exact h.launchIllegal v
  · exact h
  · exact h.putReg i v

theorem Inv.smWrite (h : Inv s) {a : Word} {v : Byte} (hx : smWrite s a v = .next t) : Inv t := by
  obtain ⟨-, rfl⟩ := smWrite_next hx
  refine { h with smCanonical := Memory.wf_write h.smCanonical _ _, smInRange := fun c hc => ?_ }
  obtain hc | ⟨rfl, -⟩ := Memory.mem_write hc
  · exact h.smInRange c hc
  · exact a.isLt

theorem Inv.hostStep (h : Inv s) (hx : hostStep s = .next t) : Inv t := by
  have hrest : ∀ rest, Inv { s with inbox := rest } := fun _ => { h with }
  obtain ⟨-, rfl⟩ | ⟨i, rest, -, rfl⟩ | ⟨i, v, rest, -, hx⟩ | ⟨rest, -, rfl⟩ | ⟨a, v, rest, -, hx⟩ | ⟨rest, -, rfl⟩ :=
    hostStep_next hx
  · exact h
  · exact { h with }
  · exact (hrest rest).writeReg hx
  · split <;> exact { h with }
  · exact (hrest rest).smWrite hx
  · exact (hrest rest).applyReset

/-! ### The Timing Generator -/

theorem nextCount_lt {v : Word} {total : Nat} (hv : v.toNat < total) : (nextCount v total).toNat < total := by
  unfold nextCount
  split
  · exact Nat.zero_lt_of_lt hv
  · rw [BitVec.toNat_ofNat]
    omega

theorem Inv.raiseFrame (h : Inv s) (hrun : s.run = true) : Inv (raiseFrame s) :=
  { h with
    vsyncLow := fun hv => h.vsyncLow (Bool.or_eq_false_iff.1 hv).1
    beforeInit := fun hf => absurd hrun (by simp [(h.beforeInit hf).1]) }

theorem Inv.raiseLine (h : Inv s) : Inv (raiseLine s) := by
  unfold Machine.raiseLine
  split
  · rename_i hev
    have hv : s.vsync = true := by
      simp only [Bool.and_eq_true] at hev
      exact hev.1.2
    exact { h with
      kInRange := Nat.zero_le _
      kOfIdle := fun _ => rfl
      kOfComplete := by simp
      vsyncLow := by simp [hv] }
  · exact h

theorem Inv.advancePosition (h : Inv s) (hrun : s.run = true) : Inv (advancePosition s) := by
  have hcount : ∀ {v : Word} {total : Nat}, 0 < total → v.toNat < max total 1 → (nextCount v total).toNat < max total 1 :=
    fun hp hv => lt_max_of_lt_left (nextCount_lt (by omega))
  obtain ⟨hH, hV⟩ := h.runPeriods hrun
  refine { h with hcntInRange := hcount hH h.hcntInRange, vcntInRange := ?_ }
  show (if s.hcnt.toNat + 1 = s.cfg.hTotal then nextCount s.vcnt s.cfg.vTotal else s.vcnt).toNat < _
  split
  · exact hcount hV h.vcntInRange
  · exact h.vcntInRange

theorem Inv.tgStep (h : Inv s) (hx : tgStep s = .next t) : Inv t := by
  obtain rfl := Host.Outcome.next.inj hx
  split
  · rename_i hrun
    exact (h.raiseFrame hrun).raiseLine.advancePosition (by simpa using hrun)
  · exact h

/-! ### The Transfer Engine -/

theorem Inv.teComplete (h : Inv s) (ht : s.test = .complete) : Inv (teComplete s) := by
  unfold Machine.teComplete
  split
  · exact { h with
      rowInRange := h.vl_pos
      srcOfRow := by simp
      kInRange := Nat.zero_le _
      kOfIdle := fun _ => rfl
      kOfComplete := by simp
      vsyncLow := fun _ => ⟨rfl, rfl⟩
      beforeInit := fun hf => ⟨(h.beforeInit hf).1, rfl, (h.beforeInit hf).2.2⟩ }
  · rename_i hlast
    obtain ⟨hcols, hfs, hvl⟩ := Cfg.geometry_of_wf h.cfgWf
    have hrow : s.row.toNat + 1 < s.cfg.vl := by
      have := h.rowInRange
      omega
    have hsrc : (s.row.toNat + 1) * s.cfg.cols < s.cfg.fsBytes := rowByte_lt_fsBytes hrow hcols
    have hrowNat : (BitVec.ofNat 16 (s.row.toNat + 1)).toNat = s.row.toNat + 1 :=
      Nat.mod_eq_of_lt (by omega)
    have hsrcNat : (BitVec.ofNat 16 (s.src.toNat + s.cfg.cols)).toNat = (s.row.toNat + 1) * s.cfg.cols := by
      rw [h.srcOfRow, ← Nat.add_one_mul]
      exact Nat.mod_eq_of_lt (by omega)
    exact { h with
      rowInRange := hrowNat.trans_lt hrow
      srcOfRow := hsrcNat.trans (by rw [hrowNat])
      kInRange := Nat.zero_le _
      kOfIdle := fun _ => rfl
      kOfComplete := by simp
      vsyncLow := fun hv => absurd (h.vsyncLow hv).2 (by simp [ht]) }

theorem Inv.teStep (h : Inv s) (hx : teStep s = .next t) : Inv t := by
  obtain ⟨-, rfl⟩ | ⟨ht, rfl⟩ | ⟨ht, hk, -, rfl⟩ | ⟨ht, hk, rfl⟩ | ⟨-, -, rfl⟩ | ⟨ht, rfl⟩ := teStep_next hx
  · exact h
  · exact { h with
      kOfIdle := by simp
      kOfComplete := by simp
      vsyncLow := fun hv => absurd (h.vsyncLow hv).2 (by simp [ht]) }
  · exact { h with kInRange := hk, kOfIdle := by simp [ht], kOfComplete := by simp [ht] }
  · exact { h with
      kOfIdle := by simp
      kOfComplete := fun _ => hk
      vsyncLow := fun hv => absurd (h.vsyncLow hv).2 (by simp [ht]) }
  · exact h
  · exact h.teComplete ht

/-! ### The Draw Engine -/

theorem Inv.fsPut (h : Inv s) {a : Nat} (ha : a < s.cfg.fsBytes) (hv : s.vsync = true) (v : Byte) : Inv (s.fsPut a v) := by
  refine { h with fsCanonical := fsPut_wf h.fsCanonical a v, fsInRange := fun c hc => ?_, beforeInit := fun hf => ?_ }
  · obtain hc | ⟨rfl, -⟩ := Memory.mem_write hc
    · exact h.fsInRange c hc
    · exact ha
  · exact absurd hv (by simp [(h.beforeInit hf).2.1])

theorem Inv.deStep (h : Inv s) (hx : deStep s = .next t) : Inv t := by
  obtain ⟨-, rfl⟩ | ⟨-, hp, rfl⟩ | ⟨-, -, -, rfl⟩ | ⟨w, rest, hb, hp, hv, ha, rfl⟩ := deStep_next hx
  · exact h
  · exact { h with pendOfBusy := fun _ => hp }
  · exact h
  · have hrest : Inv { s with pend := rest } :=
      { h with
        pendOfBusy := by simp [hb]
        pendWf := fun w' hw' => h.pendWf w' (hp ▸ List.mem_cons_of_mem _ hw') }
    exact hrest.fsPut ha hv _

theorem Inv.agentStep (h : Inv s) {a : Agent} (hx : agentStep a s = .next t) : Inv t := by
  cases a with
  | host => exact h.hostStep hx
  | tg => exact h.tgStep hx
  | te => exact h.teStep hx
  | de => exact h.deStep hx

end Sys2Proof.Machine
end

section
/-! A turn answers a next state from every state of the invariant whose HOST leaves its Source Memory alone (R240). -/
namespace Sys2Proof.Machine

variable {s t : State}

theorem exec_answers (i : Instr) (s : State) : ∃ t, exec i s = .next t := by
  rw [exec_eq]
  split
  · exact ⟨_, (apply_ite Host.Outcome.next _ _ _).symm⟩
  · exact ⟨_, (apply_ite Host.Outcome.next _ _ _).symm⟩

theorem writeReg_answers (s : State) (i : BitVec 5) (v : Word) : ∃ t, writeReg s i v = .next t := by
  unfold writeReg writeCmd
  split
  · split
    · exact exec_answers _ s
    · exact ⟨_, rfl⟩
  · exact ⟨_, rfl⟩

/-- The HOST's remaining steps write no byte of its Source Memory (log 8). -/
def leavesSourceMemory (s : State) : Prop := ∀ a v, HostAct.smWrite a v ∉ s.inbox

theorem hostStep_answers (hsm : leavesSourceMemory s) : ∃ t, hostStep s = .next t := by
  unfold hostStep
  split
  · exact ⟨_, rfl⟩
  · exact ⟨_, rfl⟩
  · exact writeReg_answers _ _ _
  · exact ⟨_, rfl⟩
  · rename_i a v rest hbox
    exact absurd (hbox ▸ List.mem_cons_self) (hsm a v)
  · exact ⟨_, rfl⟩

theorem teStep_answers (h : Inv s) : ∃ t, teStep s = .next t := by
  unfold teStep
  split
  · exact ⟨_, rfl⟩
  · exact ⟨_, rfl⟩
  · split
    · rename_i hk
      have hread : fsRead s (s.src.toNat + s.k) = some _ := if_pos (h.transferByte_lt hk)
      rw [teShift, hread]
      exact ⟨_, rfl⟩
    · exact ⟨_, (apply_ite Host.Outcome.next _ _ _).symm⟩
  · exact ⟨_, rfl⟩

theorem deStep_answers (h : Inv s) : ∃ t, deStep s = .next t := by
  unfold deStep
  split
  · split
    · exact ⟨_, rfl⟩
    · rename_i w rest hp
      split
      · exact ⟨_, perform_next.2 ⟨h.address_lt (hp ▸ List.mem_cons_self), rfl⟩⟩
      · exact ⟨_, rfl⟩
  · exact ⟨_, rfl⟩

theorem agentStep_answers (h : Inv s) (hsm : leavesSourceMemory s) (a : Agent) : ∃ t, agentStep a s = .next t := by
  cases a with
  | host => exact hostStep_answers hsm
  | tg => exact ⟨_, rfl⟩
  | te => exact teStep_answers h
  | de => exact deStep_answers h

/-- R15, log 3: a turn of an agent with no enabled step changes nothing. -/
theorem agentStep_of_not_enabled {a : Agent} (h : enabled a s = false) : agentStep a s = .next s := by
  cases a with
  | host =>
    have hbox : s.inbox = [] := by simpa [enabled] using h
    simp [agentStep, hostStep, hbox]
  | tg =>
    have hrun : s.run = false := h
    simp [agentStep, tgStep, hrun]
  | te =>
    cases ht : s.test with
    | idle => simp [agentStep, teStep, ht]
    | active =>
      have hk : s.cfg.cols < s.k := by simpa [enabled, ht] using h
      simp [agentStep, teStep, ht, Nat.not_lt_of_lt hk, Nat.ne_of_gt hk]
    | armed | complete => simp [enabled, ht] at h
  | de =>
    cases hb : s.busy with
    | false => simp [agentStep, deStep, hb]
    | true =>
      cases hp : s.pend with
      | nil => simp [enabled, hb, hp] at h
      | cons w rest =>
        have hv : s.vsync = false := by simpa [enabled, hb, hp] using h
        simp [agentStep, deStep, hb, hp, hv]

end Sys2Proof.Machine
end

section
/-! What a turn leaves of the other agents' work. -/
namespace Sys2Proof.Machine

variable {s t : State}

/-- A step of the HOST leaves the configuration, and leaves the row in transfer and, while `BUSY = 1`, the pending write
actions as they are or abandons them; it only takes steps off the HOST's list. -/
structure HostFrame (s t : State) : Prop where
  cfg : t.cfg = s.cfg
  transfer : t.test = .idle ∨ t.test = s.test ∧ t.k = s.k
  drawing : s.busy = true → t.pend = s.pend ∨ t.pend = []
  inbox : t.inbox ⊆ s.inbox

/-- A step that writes none of the other agents' fields. -/
theorem HostFrame.of_eq (hcfg : t.cfg = s.cfg) (htest : t.test = s.test) (hk : t.k = s.k) (hpend : t.pend = s.pend)
    (hbox : t.inbox ⊆ s.inbox) : HostFrame s t :=
  ⟨hcfg, .inr ⟨htest, hk⟩, fun _ => .inl hpend, hbox⟩

theorem HostFrame.refl (s : State) : HostFrame s s := .of_eq rfl rfl rfl rfl (List.Subset.refl _)

theorem putReg_hostFrame (s : State) (i : BitVec 5) (v : Word) : HostFrame s (putReg s i v) := by
  unfold putReg
  split <;> exact .of_eq rfl rfl rfl rfl (List.Subset.refl _)

theorem exec_hostFrame {i : Instr} (h : exec i s = .next t) : HostFrame s t := by
  rw [exec_eq] at h
  split at h
  · rename_i e he
    obtain ⟨-, rfl⟩ | ⟨-, rfl⟩ := launchImmediate_next.1 h
    · exact .refl _
    · cases i with
      | copyrect f | getcrect f =>
        obtain rfl := Option.some.inj he
        exact .of_eq rfl rfl rfl rfl (List.Subset.refl _)
      | init f =>
        obtain rfl := Option.some.inj he
        exact ⟨rfl, .inl rfl, fun _ => .inl rfl, List.Subset.refl _⟩
      | _ => simp [immediateEffect] at he
  · obtain ⟨-, rfl⟩ | ⟨hb, rfl⟩ := launchDrawing_next.1 h
    · exact .refl _
    · exact ⟨rfl, .inr ⟨rfl, rfl⟩, by simp [hb], List.Subset.refl _⟩

theorem launchIllegal_hostFrame (w : Word) (s : State) : HostFrame s (launchIllegal w s) := by
  unfold launchIllegal
  split <;> exact .of_eq rfl rfl rfl rfl (List.Subset.refl _)

theorem writeReg_hostFrame {i : BitVec 5} {v : Word} (h : writeReg s i v = .next t) : HostFrame s t := by
  obtain ⟨-, h⟩ | ⟨-, -, rfl⟩ | ⟨-, -, rfl⟩ := writeReg_next h
  · obtain ⟨c, -, h⟩ | ⟨-, rfl⟩ := writeCmd_next h
    · exact exec_hostFrame h
    · exact launchIllegal_hostFrame v s
  · exact .refl _
  · exact putReg_hostFrame s i v

theorem hostStep_hostFrame (h : hostStep s = .next t) : HostFrame s t := by
  have hrest : ∀ {a : HostAct} {rest : List HostAct}, s.inbox = a :: rest → rest ⊆ s.inbox :=
    fun hbox => hbox ▸ List.subset_cons_self _ _
  obtain ⟨-, rfl⟩ | ⟨i, rest, hbox, rfl⟩ | ⟨i, v, rest, hbox, h⟩ | ⟨rest, hbox, rfl⟩ | ⟨a, v, rest, hbox, h⟩ |
    ⟨rest, hbox, rfl⟩ := hostStep_next h
  · exact .refl _
  · exact .of_eq rfl rfl rfl rfl (hrest hbox)
  · obtain ⟨hcfg, htransfer, hdrawing, hsub⟩ := writeReg_hostFrame h
    exact ⟨hcfg, htransfer, hdrawing, List.Subset.trans hsub (hrest hbox)⟩
  · split
    · exact .of_eq rfl rfl rfl rfl (List.Subset.refl _)
    · exact .of_eq rfl rfl rfl rfl (hrest hbox)
  · obtain ⟨-, rfl⟩ := smWrite_next h
    exact .of_eq rfl rfl rfl rfl (hrest hbox)
  · exact ⟨rfl, .inl rfl, fun _ => .inr rfl, hrest hbox⟩

/-- A tick leaves the Transfer Engine alone while it is not idle (R147). -/
theorem tgStep_transfer (h : tgStep s = .next t) (hte : s.test ≠ .idle) : t.test = s.test ∧ t.k = s.k := by
  obtain rfl := Host.Outcome.next.inj h
  split
  · simp [tick, raiseLine, hte]
  · exact ⟨rfl, rfl⟩

theorem tgStep_others (h : tgStep s = .next t) : t.cfg = s.cfg ∧ t.pend = s.pend ∧ t.busy = s.busy ∧ t.inbox = s.inbox := by
  obtain rfl := Host.Outcome.next.inj h
  split <;> simp [tick]

theorem teStep_others (h : teStep s = .next t) : t.cfg = s.cfg ∧ t.pend = s.pend ∧ t.busy = s.busy ∧ t.inbox = s.inbox := by
  obtain ⟨-, rfl⟩ | ⟨-, rfl⟩ | ⟨-, -, -, rfl⟩ | ⟨-, -, rfl⟩ | ⟨-, -, rfl⟩ | ⟨-, rfl⟩ := teStep_next h <;> simp

theorem deStep_others (h : deStep s = .next t) : t.cfg = s.cfg ∧ t.test = s.test ∧ t.k = s.k ∧ t.inbox = s.inbox := by
  obtain ⟨-, rfl⟩ | ⟨-, -, rfl⟩ | ⟨-, -, -, rfl⟩ | ⟨w, rest, -, -, -, -, rfl⟩ := deStep_next h <;> simp

theorem leavesSourceMemory.agentStep (hsm : leavesSourceMemory s) {a : Agent} (h : agentStep a s = .next t) :
    leavesSourceMemory t := by
  have hsub : t.inbox ⊆ s.inbox := by
    cases a with
    | host => exact (hostStep_hostFrame h).inbox
    | tg => exact (tgStep_others h).2.2.2 ▸ List.Subset.refl _
    | te => exact (teStep_others h).2.2.2 ▸ List.Subset.refl _
    | de => exact (deStep_others h).2.2.2 ▸ List.Subset.refl _
  exact fun a v hmem => hsm a v (hsub hmem)

end Sys2Proof.Machine
end

section
/-! A run under a schedule, one turn at a time: no step looks at the schedule beyond its own turn. -/
namespace Sys2Proof.Machine

/-- The state with its schedule replaced (log 3). -/
def State.withSched (s : State) (l : List Agent) : State := { s with sched := l }

/-- Change the next state of an answer. -/
def onNext (g : State → State) : Result → Result
  | .next t => .next (g t)
  | .fault r => .fault r
  | .refused r => .refused r

variable (s : State) (l : List Agent)

@[simp] theorem State.withSched_inbox : (s.withSched l).inbox = s.inbox := rfl
@[simp] theorem State.withSched_busy : (s.withSched l).busy = s.busy := rfl
@[simp] theorem State.withSched_run : (s.withSched l).run = s.run := rfl
@[simp] theorem State.withSched_vsync : (s.withSched l).vsync = s.vsync := rfl
@[simp] theorem State.withSched_cfg : (s.withSched l).cfg = s.cfg := rfl
@[simp] theorem State.withSched_k : (s.withSched l).k = s.k := rfl
@[simp] theorem State.withSched_row : (s.withSched l).row = s.row := rfl
@[simp] theorem State.withSched_src : (s.withSched l).src = s.src := rfl
@[simp] theorem State.withSched_test : (s.withSched l).test = s.test := rfl
@[simp] theorem State.withSched_pend : (s.withSched l).pend = s.pend := rfl
@[simp] theorem lineEvent_withSched : lineEvent (s.withSched l) = lineEvent s := rfl
@[simp] theorem fsRead_withSched (a : Nat) : fsRead (s.withSched l) a = fsRead s a := rfl

theorem launchDrawing_withSched (w : Word) (acts : List WriteAction) :
    launchDrawing w acts (s.withSched l) = onNext (·.withSched l) (launchDrawing w acts s) := by
  unfold launchDrawing
  rw [apply_ite (onNext _)]
  rfl

theorem launchImmediate_withSched (w : Word) (e : State → State)
    (he : ∀ t : State, e (t.withSched l) = (e t).withSched l) :
    launchImmediate w e (s.withSched l) = onNext (·.withSched l) (launchImmediate w e s) := by
  unfold launchImmediate
  rw [apply_ite (onNext _)]
  exact congrArg (fun t => if s.busy then Host.Outcome.next (s.withSched l) else .next t) (he { s with cmd := w })

theorem exec_withSched (i : Instr) : exec i (s.withSched l) = onNext (·.withSched l) (exec i s) := by
  cases i with
  | copyrect f =>
    exact launchImmediate_withSched s l _ (fun t => { t with rc := t.rc.set f.ra (t.rc.get f.rb) }) fun _ => rfl
  | getcrect f =>
    exact launchImmediate_withSched s l _ (fun t => { t with rc := t.rc.set f.ra (clientRect t.cfg) }) fun _ => rfl
  | init f => exact launchImmediate_withSched s l _ videoInit fun _ => rfl
  | _ => exact launchDrawing_withSched s l _ _

theorem putReg_withSched (i : BitVec 5) (v : Word) : putReg (s.withSched l) i v = (putReg s i v).withSched l := by
  unfold putReg
  split <;> rfl

theorem writeCmd_withSched (w : Word) : writeCmd (s.withSched l) w = onNext (·.withSched l) (writeCmd s w) := by
  unfold writeCmd
  split
  · exact exec_withSched s l _
  · unfold launchIllegal
    rw [State.withSched_busy]
    split <;> rfl

theorem writeReg_withSched (i : BitVec 5) (v : Word) :
    writeReg (s.withSched l) i v = onNext (·.withSched l) (writeReg s i v) := by
  unfold writeReg
  split
  · exact writeCmd_withSched s l v
  · rw [putReg_withSched, State.withSched_busy]
    split <;> rfl

theorem smWrite_withSched (a : Word) (v : Byte) :
    smWrite (s.withSched l) a v = onNext (·.withSched l) (smWrite s a v) := by
  unfold smWrite
  rw [apply_ite (onNext _)]
  rfl

theorem hostStep_withSched : hostStep (s.withSched l) = onNext (·.withSched l) (hostStep s) := by
  unfold hostStep
  rw [State.withSched_inbox]
  cases s.inbox with
  | nil => rfl
  | cons a rest =>
    cases a with
    | read i => rfl
    | write i v => exact writeReg_withSched { s with inbox := rest } l i v
    | wait =>
      dsimp only
      rw [State.withSched_busy]
      split <;> rfl
    | smWrite a v => exact smWrite_withSched { s with inbox := rest } l a v
    | reset => rfl

theorem raiseLine_withSched : raiseLine (s.withSched l) = (raiseLine s).withSched l := by
  unfold raiseLine
  rw [lineEvent_withSched, State.withSched_vsync, State.withSched_test]
  split <;> rfl

theorem tick_withSched : tick (s.withSched l) = (tick s).withSched l :=
  congrArg advancePosition (raiseLine_withSched (raiseFrame s) l)

theorem tgStep_withSched : tgStep (s.withSched l) = onNext (·.withSched l) (tgStep s) := by
  unfold tgStep
  rw [tick_withSched, State.withSched_run]
  split <;> rfl

theorem teShift_withSched : teShift (s.withSched l) = onNext (·.withSched l) (teShift s) := by
  unfold teShift
  rw [State.withSched_src, State.withSched_k, fsRead_withSched]
  cases fsRead s (s.src.toNat + s.k) <;> rfl

theorem teComplete_withSched : teComplete (s.withSched l) = (teComplete s).withSched l := by
  unfold teComplete
  rw [State.withSched_row, State.withSched_cfg]
  split <;> rfl

theorem teStep_withSched : teStep (s.withSched l) = onNext (·.withSched l) (teStep s) := by
  unfold teStep
  rw [State.withSched_test, teShift_withSched, State.withSched_k, State.withSched_cfg, teComplete_withSched]
  cases s.test with
  | idle | armed | complete => rfl
  | active =>
    dsimp only
    split
    · rfl
    · split <;> rfl

theorem deStep_withSched : deStep (s.withSched l) = onNext (·.withSched l) (deStep s) := by
  have hwrite : ∀ w rest, deWrite w rest (s.withSched l) = onNext (·.withSched l) (deWrite w rest s) := fun w rest => by
    unfold deWrite perform fsRmw
    rw [apply_ite (onNext _)]
    rfl
  unfold deStep
  rw [State.withSched_busy, State.withSched_pend, State.withSched_vsync]
  split
  · cases s.pend with
    | nil => rfl
    | cons w rest =>
      dsimp only
      rw [hwrite]
      split <;> rfl
  · rfl

theorem agentStep_withSched (a : Agent) : agentStep a (s.withSched l) = onNext (·.withSched l) (agentStep a s) := by
  cases a with
  | host => exact hostStep_withSched s l
  | tg => exact tgStep_withSched s l
  | te => exact teStep_withSched s l
  | de => exact deStep_withSched s l

end Sys2Proof.Machine
end

section
/-! A run under a schedule, one turn at a time (R15, log 3). -/
namespace Sys2Proof.Machine

theorem onNext_eq_next {g : State → State} {r : Result} {t : State} :
    onNext g r = .next t ↔ ∃ u, r = .next u ∧ g u = t := by
  cases r <;> simp [onNext]

section
variable {M : Host.Core} {n : Nat} {s u : M.State}

theorem run_succ_of_step (h : M.step s = .next u) : M.run (n + 1) s = M.run n u := by
  rw [Host.Core.run, h]

theorem run_one (s : M.State) : M.run 1 s = M.step s := by
  rw [Host.Core.run]
  cases M.step s <;> rfl

/-- A run of one turn or more begins with a step. -/
theorem run_succ_next {t : M.State} (h : M.run (n + 1) s = .next t) : ∃ u, M.step s = .next u ∧ M.run n u = .next t := by
  rw [Host.Core.run] at h
  split at h
  · exact ⟨_, ‹_›, h⟩
  · simp at h
  · simp at h

end

/-- The next turn is `a`'s, whatever the schedule says after it. -/
theorem step_withSched_cons (s : State) (a : Agent) (l : List Agent) :
    step (s.withSched (a :: l)) = onNext (·.withSched l) (step (s.withSched [a])) := by
  unfold step
  rw [State.withSched_cfg, State.withSched_cfg]
  split
  · exact agentStep_withSched (takeTurn (s.withSched [a])) l a
  · rfl

/-- One more turn after a run that used its schedule up. -/
theorem run_append {s t : State} {l : List Agent} (a : Agent)
    (h : Host.Core.run core l.length (s.withSched l) = .next t) :
    Host.Core.run core (l.length + 1) (s.withSched (l ++ [a])) = step (t.withSched [a]) := by
  induction l generalizing s with
  | nil =>
    obtain rfl := Host.Outcome.next.inj h
    exact run_one (M := core) _
  | cons b l ih =>
    obtain ⟨u, hstep, hrun⟩ := run_succ_next (M := core) h
    change step _ = _ at hstep
    rw [step_withSched_cons] at hstep
    obtain ⟨v, hv, rfl⟩ := onNext_eq_next.1 hstep
    have hhead : step (s.withSched (b :: (l ++ [a]))) = .next (v.withSched (l ++ [a])) := by
      rw [step_withSched_cons, hv]
      rfl
    exact (run_succ_of_step (M := core) hhead).trans (ih hrun)

/-- The next turn of a run under a schedule is that of the agent the schedule names. -/
theorem runUnder_succ {σ : Nat → Agent} {n : Nat} {s t : State} (h : runUnder σ n s = .next t) :
    runUnder σ (n + 1) s = step (t.withSched [σ n]) := by
  have hlen : ((List.range n).map σ).length = n := by simp
  have hnext := run_append (l := (List.range n).map σ) (σ n) (by rw [hlen]; exact h)
  rw [hlen] at hnext
  unfold runUnder
  rw [List.range_succ, List.map_append]
  exact hnext

/-! ### Weak fairness -/

/-- The induction behind every liveness claim (R15, R150): a measure that no turn raises and every turn of `a` lowers runs
out, when `a` stays enabled until it does. -/
theorem exhausted_of_weaklyFair {σ : Nat → Agent} {s : State} {a : Agent} {P : State → Prop} {μ : State → Nat}
    (hfair : weaklyFair σ s) (hstart : P (s.withSched []))
    (henabled : ∀ t, P t → μ t ≠ 0 → enabled a t = true)
    (hturn : ∀ b t, P t → μ t ≠ 0 →
      ∃ u, step (t.withSched [b]) = .next u ∧ P u ∧ μ u ≤ μ t ∧ (b = a → μ u < μ t)) :
    ∃ n t, runUnder σ n s = .next t ∧ μ t = 0 := by
  by_contra! hnever
  have hrun : ∀ n, ∃ t, runUnder σ n s = .next t ∧ P t := by
    intro n
    induction n with
    | zero => exact ⟨_, rfl, hstart⟩
    | succ n ih =>
      obtain ⟨t, ht, hP⟩ := ih
      obtain ⟨u, hu, hPu, -⟩ := hturn (σ n) t hP (hnever n t ht)
      exact ⟨u, (runUnder_succ ht).trans hu, hPu⟩
  choose st hst hP using hrun
  have hdrop : ∀ n, μ (st (n + 1)) ≤ μ (st n) ∧ (σ n = a → μ (st (n + 1)) < μ (st n)) := by
    intro n
    obtain ⟨u, hu, -, hle⟩ := hturn (σ n) (st n) (hP n) (hnever n _ (hst n))
    have hsucc : st (n + 1) = u := Host.Outcome.next.inj ((hst (n + 1)).symm.trans ((runUnder_succ (hst n)).trans hu))
    rwa [hsucc]
  have hanti : Antitone fun n => μ (st n) := antitone_nat_of_succ_le fun n => (hdrop n).1
  obtain ⟨least, hleast⟩ : ∃ n, ∀ m, μ (st n) ≤ μ (st m) := ⟨_, fun m => Function.argmin_le (fun n => μ (st n)) m⟩
  obtain ⟨m, hm, hσ⟩ := hfair a least fun k _ => ⟨st k, hst k, henabled _ (hP k) (hnever k _ (hst k))⟩
  have hlower : μ (st (m + 1)) < μ (st least) := ((hdrop m).2 hσ).trans_le (hanti hm)
  exact (hleast (m + 1)).not_gt hlower

/-- A turn from a state of the invariant whose HOST leaves its Source Memory alone. -/
theorem turn_answers {s : State} (h : Inv s) (hsm : leavesSourceMemory s) (a : Agent) :
    ∃ t, step (s.withSched [a]) = .next t ∧ agentStep a (takeTurn (s.withSched [a])) = .next t ∧ Inv t ∧
      leavesSourceMemory t := by
  have hinv : Inv (takeTurn (s.withSched [a])) := h.scheduled _ _
  have hlist : leavesSourceMemory (takeTurn (s.withSched [a])) := hsm
  obtain ⟨t, ht⟩ := agentStep_answers hinv hlist a
  exact ⟨t, (if_pos h.cfgWf).trans ht, ht, hinv.agentStep ht, hlist.agentStep ht⟩

/-! ### A row in transfer ends (R150) -/

/-- The turns the Transfer Engine still needs to become idle: `start`, a `shift` for each byte left, `done`, `complete`
(R142 to R145). -/
def turnsToIdle (s : State) : Nat :=
  match s.test with
  | .idle => 0
  | .armed => s.cfg.cols + 3
  | .active => s.cfg.cols - s.k + 2
  | .complete => 1

theorem turnsToIdle_eq_zero {s : State} : turnsToIdle s = 0 ↔ s.test = .idle := by
  unfold turnsToIdle
  cases s.test <;> simp

theorem turnsToIdle_congr {s t : State} (hcfg : t.cfg = s.cfg) (htest : t.test = s.test) (hk : t.k = s.k) :
    turnsToIdle t = turnsToIdle s := by
  unfold turnsToIdle
  rw [hcfg, htest, hk]

theorem te_enabled_of_not_idle {s : State} (h : Inv s) (hte : s.test ≠ .idle) : enabled .te s = true := by
  cases ht : s.test with
  | idle => exact absurd ht hte
  | active => simpa [enabled, ht] using h.kInRange
  | armed | complete => simp [enabled, ht]

theorem teStep_turnsToIdle {s t : State} (hinv : Inv s) (hte : s.test ≠ .idle) (h : teStep s = .next t) :
    turnsToIdle t < turnsToIdle s := by
  obtain ⟨ht, -⟩ | ⟨ht, rfl⟩ | ⟨ht, hk, -, rfl⟩ | ⟨ht, hk, rfl⟩ | ⟨-, hk, -⟩ | ⟨ht, rfl⟩ := teStep_next h
  · exact absurd ht hte
  · simp only [turnsToIdle, teStart_test, teStart_cfg, teStart_k, ht]
    omega
  · simp only [turnsToIdle, ht]
    omega
  · simp [turnsToIdle, ht]
  · exact absurd hinv.kInRange (Nat.not_le_of_lt hk)
  · have hidle : (teComplete s).test = .idle := by
      unfold teComplete
      split <;> rfl
    simp [turnsToIdle, hidle, ht]

theorem agentStep_turnsToIdle {s t : State} {a : Agent} (hinv : Inv s) (hte : s.test ≠ .idle)
    (h : agentStep a s = .next t) : turnsToIdle t ≤ turnsToIdle s ∧ (a = .te → turnsToIdle t < turnsToIdle s) := by
  cases a with
  | host =>
    refine ⟨?_, by simp⟩
    obtain ⟨hcfg, hidle | ⟨htest, hk⟩, -, -⟩ := hostStep_hostFrame h
    · simp [turnsToIdle_eq_zero.2 hidle]
    · exact (turnsToIdle_congr hcfg htest hk).le
  | tg =>
    obtain ⟨htest, hk⟩ := tgStep_transfer h hte
    exact ⟨(turnsToIdle_congr (tgStep_others h).1 htest hk).le, by simp⟩
  | te => exact ⟨(teStep_turnsToIdle hinv hte h).le, fun _ => teStep_turnsToIdle hinv hte h⟩
  | de =>
    obtain ⟨hcfg, htest, hk, -⟩ := deStep_others h
    exact ⟨(turnsToIdle_congr hcfg htest hk).le, by simp⟩

theorem transfer_ends {s : State} {σ : Nat → Agent} (hinv : Inv s) (hsm : leavesSourceMemory s) (hfair : weaklyFair σ s) :
    ∃ n t, runUnder σ n s = .next t ∧ t.test = .idle := by
  have hend := exhausted_of_weaklyFair (a := .te) (P := fun t => Inv t ∧ leavesSourceMemory t) (μ := turnsToIdle) hfair
    ⟨hinv.scheduled _ _, hsm⟩
    (fun t ht hne => te_enabled_of_not_idle ht.1 (mt turnsToIdle_eq_zero.2 hne))
    (fun b t ht hne => by
      obtain ⟨u, hu, hstep, hinvu, hsmu⟩ := turn_answers ht.1 ht.2 b
      exact ⟨u, hu, ⟨hinvu, hsmu⟩, agentStep_turnsToIdle (s := takeTurn (t.withSched [b]))
        (ht.1.scheduled _ _) (mt turnsToIdle_eq_zero.2 hne) hstep⟩)
  simpa only [turnsToIdle_eq_zero] using hend

/-! ### A command with nothing pending finishes (R164) -/

/-- While a command with nothing pending runs, no turn gives it a write action, and the Draw Engine's finishes it. -/
theorem agentStep_of_nothing_pending {s t : State} {a : Agent} (hb : s.busy = true) (hp : s.pend = [])
    (h : agentStep a s = .next t) : t.pend = [] ∧ (a = .de → t.busy = false) := by
  cases a with
  | host =>
    obtain hpend | hpend := (hostStep_hostFrame h).drawing hb
    · exact ⟨hpend.trans hp, by simp⟩
    · exact ⟨hpend, by simp⟩
  | tg => exact ⟨(tgStep_others h).2.1.trans hp, by simp⟩
  | te => exact ⟨(teStep_others h).2.1.trans hp, by simp⟩
  | de =>
    have hfinish : deStep s = .next (deFinish s) := by simp [deStep, hb, hp]
    obtain rfl := Host.Outcome.next.inj (hfinish.symm.trans h)
    exact ⟨hp, fun _ => rfl⟩

theorem command_finishes {s : State} {σ : Nat → Agent} (hinv : Inv s) (hsm : leavesSourceMemory s) (hfair : weaklyFair σ s)
    (hp : s.pend = []) : ∃ n t, runUnder σ n s = .next t ∧ t.busy = false := by
  have hend := exhausted_of_weaklyFair (a := .de) (P := fun t => (Inv t ∧ leavesSourceMemory t) ∧ t.pend = [])
    (μ := fun t => t.busy.toNat) hfair
    ⟨⟨hinv.scheduled _ _, hsm⟩, hp⟩
    (fun t ht hne => by
      have hb : t.busy = true := by simpa using hne
      simp [enabled, hb, ht.2])
    (fun b t ht hne => by
      have hb : t.busy = true := by simpa using hne
      obtain ⟨u, hu, hstep, hinvu⟩ := turn_answers ht.1.1 ht.1.2 b
      obtain ⟨hpu, hfin⟩ := agentStep_of_nothing_pending (s := takeTurn (t.withSched [b])) hb ht.2 hstep
      refine ⟨u, hu, ⟨hinvu, hpu⟩, ?_, fun hde => ?_⟩
      · simpa [hb] using Bool.toNat_le u.busy
      · simp [hb, hfin hde])
  simpa using hend

/-- Settles O60: turns without an enabled step by the agents' cases; the two liveness claims by a measure that weak
fairness exhausts, the invariant keeping every turn of the run defined. -/
theorem weaklyFairSchedulesFinish : Obligations.WeaklyFairSchedulesFinish :=
  ⟨fun _ _ => agentStep_of_not_enabled, fun _ _ hinv hsm hfair =>
    ⟨transfer_ends hinv hsm hfair, command_finishes hinv hsm hfair⟩⟩

end Sys2Proof.Machine
end

section
/-! What a launch and a HOST register write can do. -/
namespace Sys2Proof.Machine

variable {s t : State}

/-! ### Launches -/

/-- All a launch can do: nothing while `BUSY = 1`; INIT restarts the video; every other command writes no more than `CMD`,
the Rectangle registers, `PEND` and `BUSY` (R161). -/
theorem exec_next {i : Instr} (h : exec i s = .next t) :
    (s.busy = true ∧ t = s) ∨ (s.busy = false ∧
      ((∃ f, i = .init f ∧ t = videoInit { s with cmd := encode i }) ∨
        ∃ rc pend busy, t = { s with cmd := encode i, rc := rc, pend := pend, busy := busy })) := by
  rw [exec_eq] at h
  split at h
  · rename_i e he
    obtain ⟨hb, rfl⟩ | ⟨hb, rfl⟩ := launchImmediate_next.1 h
    · exact .inl ⟨hb, rfl⟩
    · refine .inr ⟨hb, ?_⟩
      cases i with
      | init f =>
        obtain rfl := Option.some.inj he
        exact .inl ⟨f, rfl, rfl⟩
      | copyrect f | getcrect f =>
        obtain rfl := Option.some.inj he
        exact .inr ⟨_, _, _, rfl⟩
      | _ => simp [immediateEffect] at he
  · obtain ⟨hb, rfl⟩ | ⟨hb, rfl⟩ := launchDrawing_next.1 h
    · exact .inl ⟨hb, rfl⟩
    · exact .inr ⟨hb, .inr ⟨_, _, _, rfl⟩⟩

/-- R35, R160: a busy block ignores the launch of any command. -/
theorem exec_of_busy (i : Instr) (hb : s.busy = true) : exec i s = .next s := by
  obtain ⟨t, h⟩ := exec_answers i s
  obtain ⟨-, rfl⟩ | ⟨hidle, -⟩ := exec_next h
  · exact h
  · simp [hb] at hidle

/-! ### Register writes -/

/-- R35: a busy block ignores every register write. -/
theorem writeReg_of_busy (i : BitVec 5) (v : Word) (hb : s.busy = true) : writeReg s i v = .next s := by
  obtain ⟨t, h⟩ := writeReg_answers s i v
  obtain ⟨-, hcmd⟩ | ⟨-, -, rfl⟩ | ⟨-, hidle, -⟩ := writeReg_next h
  · obtain ⟨c, -, hexec⟩ | ⟨-, rfl⟩ := writeCmd_next hcmd
    · rw [h, ← hexec, exec_of_busy c hb]
    · simpa [launchIllegal, hb] using h
  · exact h
  · simp [hb] at hidle

/-- With `BUSY = 0` a write to an index other than that of `CMD` is `putReg`. -/
theorem writeReg_of_idle {i : BitVec 5} (v : Word) (hi : i ≠ 0x00) (hb : s.busy = false) :
    writeReg s i v = .next (putReg s i v) := by
  rw [writeReg, if_neg hi, if_neg (by simp [hb])]

/-- The read-only indices and the reserved one (R34). -/
theorem putReg_of_readOnly {i : BitVec 5} (v : Word) (hi : i.toNat ∈ [0x01, 0x02, 0x0B, 0x0C, 0x0D, 0x0E, 0x0F]) :
    putReg s i v = s := by
  unfold putReg
  split
  case h_25 => rfl
  all_goals
    rename_i hn
    simp [hn] at hi

end Sys2Proof.Machine
end

section
/-! The picture and the sync flag change only where the rules say so (R22, R71). -/
namespace Sys2Proof.Machine

variable {s t : State}

/-! ### Turns of the HOST -/

/-- The picture, what it rests on, and the sync flag are the same in both states. -/
structure SameDisplay (s t : State) : Prop where
  fs : t.fs = s.fs
  fsFill : t.fsFill = s.fsFill
  resets : t.resets = s.resets
  vsync : t.vsync = s.vsync

theorem SameDisplay.fsByte (h : SameDisplay s t) (a : Nat) : t.fsByte a = s.fsByte a :=
  fsByte_congr h.fs h.fsFill h.resets a

theorem putReg_sameDisplay (s : State) (i : BitVec 5) (v : Word) : SameDisplay s (putReg s i v) := by
  unfold putReg
  split <;> exact ⟨rfl, rfl, rfl, rfl⟩

theorem launchIllegal_sameDisplay (w : Word) (s : State) : SameDisplay s (launchIllegal w s) := by
  unfold launchIllegal
  split <;> exact ⟨rfl, rfl, rfl, rfl⟩

/-- INIT launched from an idle block is the one register write that touches the picture or the sync flag (R71, R226). -/
theorem writeReg_sameDisplay {i : BitVec 5} {v : Word} (h : writeReg s i v = .next t) :
    SameDisplay s t ∨ i = 0x00 ∧ s.busy = false ∧ ∃ f, decode v = .ok (.init f) := by
  obtain ⟨hi, hcmd⟩ | ⟨-, -, rfl⟩ | ⟨-, -, rfl⟩ := writeReg_next h
  · obtain ⟨c, hdec, hexec⟩ | ⟨-, rfl⟩ := writeCmd_next hcmd
    · obtain ⟨-, rfl⟩ | ⟨hb, ⟨f, rfl, -⟩ | ⟨rc, pend, busy, rfl⟩⟩ := exec_next hexec
      · exact .inl ⟨rfl, rfl, rfl, rfl⟩
      · exact .inr ⟨hi, hb, f, hdec⟩
      · exact .inl ⟨rfl, rfl, rfl, rfl⟩
    · exact .inl (launchIllegal_sameDisplay v s)
  · exact .inl ⟨rfl, rfl, rfl, rfl⟩
  · exact .inl (putReg_sameDisplay s i v)

/-- A turn of the HOST leaves the picture and the sync flag alone, unless it launches INIT or asserts reset. -/
theorem hostTurn_sameDisplay (hturn : nextAgent s = .host) (h : hostStep (takeTurn s) = .next t) :
    SameDisplay s t ∨ hostInits s ∨ hostResets s := by
  obtain ⟨-, rfl⟩ | ⟨i, rest, -, rfl⟩ | ⟨i, v, rest, hbox, h⟩ | ⟨rest, -, rfl⟩ | ⟨a, v, rest, -, h⟩ | ⟨rest, hbox, rfl⟩ :=
    hostStep_next h
  · exact .inl ⟨rfl, rfl, rfl, rfl⟩
  · exact .inl ⟨rfl, rfl, rfl, rfl⟩
  · obtain ⟨hfs, hfill, hresets, hvsync⟩ | ⟨rfl, hb, f, hdec⟩ := writeReg_sameDisplay h
    · exact .inl ⟨hfs, hfill, hresets, hvsync⟩
    · exact .inr (.inl ⟨hturn, hb, v, f, congrArg List.head? hbox, hdec⟩)
  · split <;> exact .inl ⟨rfl, rfl, rfl, rfl⟩
  · obtain ⟨-, rfl⟩ := smWrite_next h
    exact .inl ⟨rfl, rfl, rfl, rfl⟩
  · exact .inr (.inr ⟨hturn, congrArg List.head? hbox⟩)

/-! ### The picture -/

theorem tgStep_fsByte (h : tgStep s = .next t) (a : Nat) : t.fsByte a = s.fsByte a := by
  obtain rfl := Host.Outcome.next.inj h
  split
  · exact fsByte_congr (by simp [tick]) (by simp [tick]) (by simp [tick]) a
  · rfl

theorem teStep_fsByte (h : teStep s = .next t) (a : Nat) : t.fsByte a = s.fsByte a := by
  obtain ⟨-, rfl⟩ | ⟨-, rfl⟩ | ⟨-, -, -, rfl⟩ | ⟨-, -, rfl⟩ | ⟨-, -, rfl⟩ | ⟨-, rfl⟩ := teStep_next h <;>
    exact fsByte_congr (by simp) (by simp) (by simp) a

/-- A turn of the DE changes a byte only where it performs the first pending action with the gate open (R163). -/
theorem deStep_fsByte (hfs : Memory.wf s.fsUnwritten s.fs) (h : deStep s = .next t) {a : Nat}
    (hne : t.fsByte a ≠ s.fsByte a) : s.busy = true ∧ s.vsync = true ∧ ∃ w rest, s.pend = w :: rest ∧ w.address = a := by
  obtain ⟨-, rfl⟩ | ⟨-, -, rfl⟩ | ⟨-, -, -, rfl⟩ | ⟨w, rest, hb, hp, hv, -, rfl⟩ := deStep_next h
  · exact absurd rfl hne
  · exact absurd rfl hne
  · exact absurd rfl hne
  · refine ⟨hb, hv, w, rest, hp, ?_⟩
    by_contra haddr
    rw [fsPut_fsByte (s := { s with pend := rest }) hfs, if_neg (Ne.symm haddr)] at hne
    exact hne rfl

/-- Settles O34: by the agent whose turn it is; only the DE's write and the HOST's INIT and reset reach the bytes. -/
theorem pictureChangesOnlyThroughTheGate : Obligations.PictureChangesOnlyThroughTheGate := by
  intro s t a hinv h hne
  obtain ⟨-, h⟩ := step_next h
  cases hturn : nextAgent s with
  | host =>
    rw [hturn] at h
    obtain hsame | hcause := hostTurn_sameDisplay hturn h
    · exact absurd (hsame.fsByte a) hne
    · exact .inr hcause
  | tg =>
    rw [hturn] at h
    exact absurd (tgStep_fsByte h a) hne
  | te =>
    rw [hturn] at h
    exact absurd (teStep_fsByte h a) hne
  | de =>
    rw [hturn] at h
    exact .inl ⟨rfl, deStep_fsByte (s := takeTurn s) hinv.fsCanonical h hne⟩

/-! ### The sync flag -/

/-- A tick never clears the sync flag (R122). -/
theorem tgStep_vsync (h : tgStep s = .next t) (hv : s.vsync = true) : t.vsync = true := by
  obtain rfl := Host.Outcome.next.inj h
  split <;> simp [tick, hv]

/-- The Transfer Engine clears the sync flag only in the `complete` step of the last row (R145). -/
theorem teStep_vsync (h : teStep s = .next t) :
    t.vsync = s.vsync ∨ s.test = .complete ∧ s.row.toNat + 1 = s.cfg.vl := by
  obtain ⟨-, rfl⟩ | ⟨-, rfl⟩ | ⟨-, -, -, rfl⟩ | ⟨-, -, rfl⟩ | ⟨-, -, rfl⟩ | ⟨hte, rfl⟩ := teStep_next h
  case inr.inr.inr.inr.inr =>
    unfold teComplete
    split
    · exact .inr ⟨hte, ‹_›⟩
    · exact .inl rfl
  all_goals exact .inl rfl

theorem deStep_vsync (h : deStep s = .next t) : t.vsync = s.vsync := by
  obtain ⟨-, rfl⟩ | ⟨-, -, rfl⟩ | ⟨-, -, -, rfl⟩ | ⟨w, rest, -, -, -, -, rfl⟩ := deStep_next h <;> rfl

/-- Settles O24: by the agent whose turn it is; the TG only raises the flag and the DE never writes it. -/
theorem vsyncFallsOnlyAtTheWrap : Obligations.VsyncFallsOnlyAtTheWrap := by
  intro s t h hs ht
  have hchanged : t.vsync ≠ s.vsync := by simp [hs, ht]
  obtain ⟨-, h⟩ := step_next h
  cases hturn : nextAgent s with
  | host =>
    rw [hturn] at h
    obtain hsame | hcause := hostTurn_sameDisplay hturn h
    · exact absurd hsame.vsync hchanged
    · exact .inr hcause
  | tg =>
    rw [hturn] at h
    exact absurd (tgStep_vsync (s := takeTurn s) h hs) (by simp [ht])
  | te =>
    rw [hturn] at h
    obtain hkept | ⟨hte, hrow⟩ := teStep_vsync h
    · exact absurd hkept hchanged
    · exact .inl ⟨rfl, hte, hrow⟩
  | de =>
    rw [hturn] at h
    exact absurd (deStep_vsync h) hchanged

end Sys2Proof.Machine
end

section
/-! A running command keeps what it was launched with (R27, R35). -/
namespace Sys2Proof.Machine

variable {s t : State}

/-- The operand registers (R27). -/
def State.operands (s : State) : List Word := [s.x0, s.y0, s.x1, s.y1, s.bw, s.bh, s.ptr, s.len]

/-- A turn while a command runs writes no operand register, no Rectangle register and not `CMD`, unless it is the HOST's
reset (R27, R35). -/
theorem agentStep_keepsCommand (hb : s.busy = true) {a : Agent} (hreset : a = .host → s.inbox.head? ≠ some .reset)
    (h : agentStep a s = .next t) : t.operands = s.operands ∧ t.rc = s.rc ∧ t.cmd = s.cmd := by
  cases a with
  | host =>
    obtain ⟨-, rfl⟩ | ⟨i, rest, -, rfl⟩ | ⟨i, v, rest, -, h⟩ | ⟨rest, -, rfl⟩ | ⟨a, v, rest, -, h⟩ | ⟨rest, hbox, -⟩ :=
      hostStep_next h
    · exact ⟨rfl, rfl, rfl⟩
    · exact ⟨rfl, rfl, rfl⟩
    · rw [writeReg_of_busy (s := { s with inbox := rest }) i v hb] at h
      obtain rfl := Host.Outcome.next.inj h
      exact ⟨rfl, rfl, rfl⟩
    · split <;> exact ⟨rfl, rfl, rfl⟩
    · obtain ⟨-, rfl⟩ := smWrite_next h
      exact ⟨rfl, rfl, rfl⟩
    · exact absurd (congrArg List.head? hbox) (hreset rfl)
  | tg =>
    obtain rfl := Host.Outcome.next.inj h
    split <;> simp [State.operands, tick]
  | te =>
    obtain ⟨-, rfl⟩ | ⟨-, rfl⟩ | ⟨-, -, -, rfl⟩ | ⟨-, -, rfl⟩ | ⟨-, -, rfl⟩ | ⟨-, rfl⟩ := teStep_next h <;>
      simp [State.operands]
  | de =>
    obtain ⟨-, rfl⟩ | ⟨-, -, rfl⟩ | ⟨-, -, -, rfl⟩ | ⟨w, rest, -, -, -, -, rfl⟩ := deStep_next h <;>
      simp [State.operands]

/-- No command writes an operand register (R27). -/
theorem exec_operands {i : Instr} (h : exec i s = .next t) : t.operands = s.operands := by
  obtain ⟨-, rfl⟩ | ⟨-, ⟨f, -, rfl⟩ | ⟨rc, pend, busy, rfl⟩⟩ := exec_next h
  · rfl
  · simp [State.operands]
  · rfl

theorem operands_eq_iff : t.operands = s.operands ↔
    t.x0 = s.x0 ∧ t.y0 = s.y0 ∧ t.x1 = s.x1 ∧ t.y1 = s.y1 ∧ t.bw = s.bw ∧ t.bh = s.bh ∧ t.ptr = s.ptr ∧ t.len = s.len := by
  simp [State.operands]

/-- Settles O37: the launches by their inversion lemma, a step by the agent whose turn it is. -/
theorem operandsOutliveTheCommand : Obligations.OperandsOutliveTheCommand := by
  refine ⟨fun i s t h => operands_eq_iff.1 (exec_operands h), fun s t hb hnr h => ?_⟩
  obtain ⟨-, h⟩ := step_next h
  obtain ⟨hop, hrc, hcmd⟩ := agentStep_keepsCommand (s := takeTurn s) hb (fun hturn hbox => hnr ⟨hturn, hbox⟩) h
  obtain ⟨hx0, hy0, hx1, hy1, hbw, hbh, hptr, hlen⟩ := operands_eq_iff.1 hop
  exact ⟨hx0, hy0, hx1, hy1, hbw, hbh, hptr, hlen, hrc, hcmd⟩

/-- Settles O11: a launch does nothing while `BUSY = 1`. -/
theorem busyBlockIgnoresEveryLaunch : Obligations.BusyBlockIgnoresEveryLaunch :=
  fun i _ hb => exec_of_busy i hb

end Sys2Proof.Machine
end

section
/-! The word of a legal command: no bit of it is dropped (R91, R102). -/
namespace Sys2Proof

theorem RasterOp.toBits_ofBits : ∀ b : BitVec 2, (RasterOp.ofBits b).toBits = b := by decide

theorem RectIx.toBits_ofBits : ∀ b : BitVec 2, (RectIx.ofBits b).toBits = b := by decide

theorem Align.toBit_ofBit : ∀ b : Bool, (Align.ofBit b).toBit = b := by decide

theorem ofBool_getLsbD_eq_extractLsb' (w : Word) (n : Nat) : BitVec.ofBool (w.getLsbD n) = w.extractLsb' n 1 := by
  apply BitVec.eq_of_getLsbD_eq
  intro k hk
  obtain rfl : k = 0 := by omega
  simp

/-- A word is the word of a command that has its opcode and its fields, once its top bits are 0 (R91). -/
theorem encode_of_bits {w : Word} {i : Instr} (hz : w.extractLsb' 12 4 = 0#4) (hop : i.opcode = w.extractLsb' 0 4)
    (hf : i.fields = .ofWord w) : encode i = w := by
  rw [encode, ← hz]
  simp only [hf, hop, Fields.ofWord, RasterOp.toBits_ofBits, RectIx.toBits_ofBits, Align.toBit_ofBit,
    ofBool_getLsbD_eq_extractLsb']
  have hjoin : ∀ {lo len hi : Nat} (n : Nat), hi = lo + len →
      w.extractLsb' hi n ++ w.extractLsb' lo len = w.extractLsb' lo (n + len) :=
    fun _ h => BitVec.extractLsb'_append_extractLsb'_eq_extractLsb' h
  rw [hjoin 4 (show 12 = 10 + 2 from rfl), hjoin _ (show 10 = 8 + 2 from rfl), hjoin _ (show 8 = 7 + 1 from rfl),
    hjoin _ (show 7 = 6 + 1 from rfl), hjoin _ (show 6 = 4 + 2 from rfl), hjoin _ (show 4 = 0 + 4 from rfl)]
  exact BitVec.extractLsb'_eq_self

/-- Decoding drops no bit of a legal word (R91, R102). -/
theorem encode_of_decode {w : Word} {i : Instr} (h : decode w = .ok i) : encode i = w := by
  unfold decode at h
  split at h
  · simp at h
  · rename_i hz
    split at h
    case h_1 | h_16 => simp at h
    all_goals
      obtain rfl := Except.ok.inj h
      exact encode_of_bits (not_not.1 hz) (BitVec.eq_of_toNat_eq (Eq.symm ‹_›)) rfl

end Sys2Proof
end

section
/-! The HOST's view of the registers (R27 to R35). -/
namespace Sys2Proof.Machine

variable {s t : State}

/-! ### Read after write -/

/-- The register file as the HOST reads it, in the order of the map (R34). -/
def State.registers (s : State) : List Word :=
  [s.cmd, statusWord s, s.result, s.x0, s.y0, s.x1, s.y1, s.bw, s.bh, s.ptr, s.len, s.hcnt, s.vcnt, s.row, s.src, 0,
    s.rc.r0.x, s.rc.r0.y, s.rc.r0.w, s.rc.r0.h, s.rc.r1.x, s.rc.r1.y, s.rc.r1.w, s.rc.r1.h,
    s.rc.r2.x, s.rc.r2.y, s.rc.r2.w, s.rc.r2.h, s.rc.r3.x, s.rc.r3.y, s.rc.r3.w, s.rc.r3.h]

theorem registers_getElem? (s : State) (i : BitVec 5) : s.registers[i.toNat]? = some (readReg s i) := by
  unfold readReg
  split
  case h_32 =>
    have hlt := i.isLt
    simp only [imp_false] at *
    have hi : i.toNat = 0x1F := by omega
    rw [hi]
    rfl
  all_goals
    rename_i hn
    rw [hn]
    rfl

/-- A write to an operand register or a Rectangle field replaces that one entry of the register file. -/
theorem registers_putReg {i : BitVec 5} (v : Word)
    (hi : i.toNat ∉ [0x00, 0x01, 0x02, 0x0B, 0x0C, 0x0D, 0x0E, 0x0F]) :
    (putReg s i v).registers = s.registers.set i.toNat v := by
  simp only [List.mem_cons, List.not_mem_nil, or_false, not_or] at hi
  unfold putReg
  split
  case h_25 =>
    have hlt := i.isLt
    simp only [imp_false] at *
    omega
  all_goals
    rename_i hn
    rw [hn]
    rfl

theorem readReg_putReg {i : BitVec 5} (v : Word)
    (hi : i.toNat ∉ [0x00, 0x01, 0x02, 0x0B, 0x0C, 0x0D, 0x0E, 0x0F]) (j : BitVec 5) :
    readReg (putReg s i v) j = if j = i then v else readReg s j := by
  have hread := registers_getElem? (putReg s i v) j
  have hlen : j.toNat < s.registers.length := j.isLt
  rw [registers_putReg v hi, List.getElem?_set, registers_getElem?] at hread
  by_cases hji : j = i
  · subst hji
    simpa [hlen, eq_comm] using hread
  · have hne : i.toNat ≠ j.toNat := fun h => hji (BitVec.eq_of_toNat_eq h.symm)
    simpa [hne, hji, eq_comm] using hread

/-! ### The word in `CMD` -/

theorem exec_cmd {i : Instr} (hb : s.busy = false) (h : exec i s = .next t) : t.cmd = encode i := by
  obtain ⟨hbusy, -⟩ | ⟨-, ⟨f, -, rfl⟩ | ⟨rc, pend, busy, rfl⟩⟩ := exec_next h
  · simp [hb] at hbusy
  · simp
  · rfl

/-- R29: `CMD` stores the word written while `BUSY = 0`, legal or not. -/
theorem writeReg_cmd {w : Word} (hb : s.busy = false) (h : writeReg s 0x00 w = .next t) : t.cmd = w := by
  obtain ⟨-, hcmd⟩ | ⟨hne, -⟩ | ⟨hne, -⟩ := writeReg_next h
  · obtain ⟨i, hdec, hexec⟩ | ⟨-, rfl⟩ := writeCmd_next hcmd
    · rw [exec_cmd hb hexec, encode_of_decode hdec]
    · simp [launchIllegal, hb]
  · exact absurd rfl hne
  · exact absurd rfl hne

theorem hostStep_read {i : BitVec 5} {rest : List HostAct} (h : s.inbox = .read i :: rest) :
    hostStep s = .next { s with inbox := rest, reads := s.reads ++ [{ index := i, value := readReg s i }] } := by
  unfold hostStep
  rw [h]
  rfl

theorem writeReg_of_readOnly {i : BitVec 5} (v : Word) (hi : i.toNat ∈ [0x01, 0x02, 0x0B, 0x0C, 0x0D, 0x0E, 0x0F]) :
    writeReg s i v = .next s := by
  have hcmd : i ≠ 0x00 := by
    rintro rfl
    simp at hi
  rw [writeReg, if_neg hcmd, putReg_of_readOnly v hi, ite_self]

/-- Settles O8, clause by clause; the operand writes through the register file as one list. -/
theorem hostAccessRule : Obligations.HostAccessRule := by
  refine ⟨fun s i rest => hostStep_read, fun s i v => writeReg_of_readOnly v, fun s i v => writeReg_of_busy i v,
    fun s i v hb hi => ?_, fun s w hb => ?_⟩
  · have hcmd : i ≠ 0x00 := by
      rintro rfl
      simp at hi
    refine ⟨putReg s i v, writeReg_of_idle v hcmd hb, ?_, fun j hj => ?_⟩
    · rw [readReg_putReg v hi, if_pos rfl]
    · rw [readReg_putReg v hi, if_neg hj]
  · obtain ⟨t, h⟩ := writeReg_answers s 0x00 w
    exact ⟨t, h, writeReg_cmd hb h⟩

/-- Settles O6: the HOST's write to `CMD` unfolds to `writeCmd`, which decodes the word. -/
theorem stepRunsDecodedCommand : Obligations.StepRunsDecodedCommand := by
  intro s w i rest hwf hturn hbox hdec
  have hhost : hostStep (takeTurn s) = writeReg { takeTurn s with inbox := rest } 0x00 w := by
    unfold hostStep
    rw [takeTurn_inbox, hbox]
  calc step s = hostStep (takeTurn s) := by rw [step, if_pos hwf, hturn]; rfl
    _ = writeCmd { takeTurn s with inbox := rest } w := by rw [hhost, writeReg, if_pos rfl]
    _ = exec i { takeTurn s with inbox := rest } := by rw [writeCmd, hdec]

/-- Settles O9: the map row by row, and for each Rectangle register its four fields. -/
theorem registerMapReads : Obligations.RegisterMapReads := by
  intro s
  refine ⟨rfl, rfl, rfl, rfl, rfl, rfl, rfl, rfl, rfl, rfl, rfl, rfl, rfl, rfl, rfl, rfl, fun i => ?_⟩
  cases i <;> exact ⟨rfl, rfl, rfl, rfl⟩

/-- Settles O10: with `BUSY = 0` a write is `putReg`, whose row for each index is the statement. -/
theorem registerWritesStore : Obligations.RegisterWritesStore := by
  intro s v hb
  have hput : ∀ i : BitVec 5, i ≠ 0x00 → writeReg s i v = .next (putReg s i v) := fun _ hi => writeReg_of_idle v hi hb
  refine ⟨hput 0x03 (by decide), hput 0x04 (by decide), hput 0x05 (by decide), hput 0x06 (by decide),
    hput 0x07 (by decide), hput 0x08 (by decide), hput 0x09 (by decide), hput 0x0A (by decide), fun i => ?_⟩
  cases i <;> exact ⟨hput _ (by decide), hput _ (by decide), hput _ (by decide), hput _ (by decide)⟩

end Sys2Proof.Machine
end

section
/-! The fields of `STATUS` (R30). -/
namespace Sys2Proof.Machine

/-- `STATUS` as a sum of its fields (R30). -/
theorem statusWord_toNat (s : State) : (statusWord s).toNat =
    s.busy.toNat + 2 * s.vsync.toNat + 4 * s.run.toNat + 8 * s.test.code.toNat + 32 * s.ill.toNat +
      64 * (hsPin s).toNat + 128 * (vsPin s).toNat := by
  have happend : ∀ {m n : Nat} (x : BitVec m) (y : BitVec n), (x ++ y).toNat = x.toNat * 2 ^ n + y.toNat :=
    fun {m n} x y => by rw [BitVec.toNat_append, ← Nat.shiftLeft_add_eq_or_of_lt y.isLt, Nat.shiftLeft_eq]
  simp only [statusWord, happend, BitVec.toNat_ofBool, BitVec.toNat_ofNat]
  omega

/-- Settles O12: the one-bit fields by their place in the word, the rest by the sum of the fields. -/
theorem statusReflectsTheState : Obligations.StatusReflectsTheState := by
  intro s
  have hsum := statusWord_toNat s
  have hbusy := s.busy.toNat_le
  have hvsync := s.vsync.toNat_le
  have hrun := s.run.toNat_le
  have hcode := s.test.code.isLt
  have hill := s.ill.toNat_le
  have hhs := (hsPin s).toNat_le
  have hvs := (vsPin s).toNat_le
  refine ⟨?_, ?_, ?_, ?_, ?_, ?_, ?_, by omega, fun v => writeReg_of_readOnly v (by decide), fun rest => hostStep_read⟩
  case refine_4 =>
    have htest : (statusWord s).toNat / 8 % 4 = s.test.code.toNat := by omega
    rw [htest]
    cases s.test <;> rfl
  all_goals
    simp only [statusWord, BitVec.getLsbD_append]
    simp [hsPin, vsPin]

end Sys2Proof.Machine
end

section
/-! The state after reset (R37, R39). -/
namespace Sys2Proof.Machine

theorem resetValues_resetOf (c : Cfg) : resetValues (State.resetOf c) := by
  have hrect : ∀ i, (State.resetOf c).rc.get i = { x := 0, y := 0, w := 0, h := 0 } := fun i => by cases i <;> rfl
  exact ⟨rfl, rfl, rfl, rfl, rfl, rfl, rfl, rfl, rfl, rfl, rfl, rfl, rfl, rfl, rfl, rfl, rfl, rfl, hrect, rfl, rfl, rfl,
    rfl, rfl, rfl, rfl⟩

/-- Settles O16: `applyReset` leaves the block's fields as the reset state of the same configuration has them. -/
theorem resetLeavesItsValues : Obligations.ResetLeavesItsValues := by
  refine ⟨fun s rest hbox => ⟨applyReset { s with inbox := rest }, ?_, resetValues_resetOf s.cfg, rfl⟩, resetValues_resetOf,
    resetValues_resetOf _⟩
  unfold hostStep
  rw [hbox]

theorem Inv.resetOf {c : Cfg} (h : c.wf = true) : Inv (State.resetOf c) where
  cfgWf := h
  fsCanonical := Memory.wf_nil
  fsInRange := List.forall_mem_nil _
  smCanonical := Memory.wf_nil
  smInRange := List.forall_mem_nil _
  rowInRange := by
    simp only [Cfg.wf, Cfg.geometryOk, Bool.and_eq_true, decide_eq_true_eq] at h
    obtain ⟨⟨⟨⟨⟨⟨-, hvl⟩, -⟩, -⟩, -⟩, -⟩, -⟩ := h
    exact hvl
  srcOfRow := (Nat.zero_mul _).symm
  kInRange := Nat.zero_le _
  kOfIdle := fun _ => rfl
  kOfComplete := fun h => nomatch h
  hcntInRange := lt_max_of_lt_right Nat.one_pos
  vcntInRange := lt_max_of_lt_right Nat.one_pos
  runPeriods := fun h => nomatch h
  pendOfBusy := fun _ => rfl
  pendWf := List.forall_mem_nil _
  vsyncLow := fun _ => ⟨rfl, rfl⟩
  resultCode := .inl rfl
  beforeInit := fun _ => ⟨rfl, rfl, rfl⟩

/-- Settles O17: every clause of R39 from the reset values and the bounds of the configuration. -/
theorem invHoldsAtReset : Obligations.InvHoldsAtReset :=
  ⟨fun _ => Inv.resetOf, Inv.resetOf (by decide)⟩

end Sys2Proof.Machine
end

section
/-! The HOST's Source Memory (R63). -/
namespace Sys2Proof.Machine

/-- Source Memory addresses repeat every 65536 bytes. -/
theorem wrap16_add_period (p : Int) : wrap16 (p + 65536) = wrap16 p :=
  congrArg Int.toNat (Int.add_emod_right p 65536)

theorem smRead_add_period (s : State) (p : Int) : smRead s (p + 65536) = smRead s p :=
  congrArg (Memory.read smUnwritten s.sm) (wrap16_add_period p)

/-- With no command running no byte is in use, so every write is performed (R274). -/
theorem smWrite_of_idle {s : State} (hb : s.busy = false) (a : Word) (v : Byte) :
    smWrite s a v = .next { s with sm := Memory.write smUnwritten s.sm a.toNat v } := by
  have hfree : smInUse s a = false := by rw [smInUse, hb, Bool.false_and]
  rw [smWrite, if_neg (by simp [hfree])]

/-- Settles O14: a write while `BUSY = 0` is performed, and the law of the byte memories says what reads back. -/
theorem sourceMemoryReadsBack : Obligations.SourceMemoryReadsBack :=
  ⟨fun _ a v hsm hb => ⟨_, smWrite_of_idle hb a v, rfl, fun p => Memory.read_write hsm a.toNat (wrap16 p) v⟩,
    smRead_add_period⟩

end Sys2Proof.Machine
end

section
/-! A command runs to completion while the gate is open (R70, R163, R164). -/
namespace Sys2Proof.Machine

variable {s : State}

/-! ### Painting a write list -/

theorem paint_cons (w : WriteAction) (acts : List WriteAction) (s : State) :
    paint (w :: acts) s = paint acts (s.fsPut w.address (w.apply (s.fsByte w.address))) := rfl

/-- Painting neither reads nor writes the Draw Engine's registers and the model's own turn fields. -/
theorem paint_frame (acts : List WriteAction) (s : State) (p : List WriteAction) (b : Bool) (l : List Agent) (n : Nat) :
    paint acts { s with pend := p, busy := b, sched := l, turn := n } =
      { paint acts s with pend := p, busy := b, sched := l, turn := n } := by
  induction acts generalizing s with
  | nil => rfl
  | cons w acts ih => exact ih (s.fsPut w.address (w.apply (s.fsByte w.address)))

/-! ### The Draw Engine's turns -/

theorem deStep_finish (hb : s.busy = true) (hp : s.pend = []) : deStep s = .next (deFinish s) := by
  simp only [deStep, hb, hp, if_true]

/-- `write` (R163): in a state of the invariant the first pending action has an address that exists. -/
theorem deStep_write (h : Inv s) (hb : s.busy = true) (hv : s.vsync = true) {w : WriteAction} {rest : List WriteAction}
    (hp : s.pend = w :: rest) :
    deStep s = .next (({ s with pend := rest } : State).fsPut w.address (w.apply (s.fsByte w.address))) :=
  calc deStep s = deWrite w rest s := by simp only [deStep, hb, hp, hv, if_true]
    _ = _ := perform_next.2 ⟨h.address_lt (hp ▸ List.mem_cons_self), rfl⟩

/-- The next turn is the one the schedule names. -/
theorem step_of_sched (hwf : s.cfg.wf = true) {a : Agent} {l : List Agent} (hs : s.sched = a :: l) :
    step s = agentStep a (takeTurn s) := by
  rw [step, if_pos hwf, nextAgent, hs]

/-- The induction on the write list: each turn performs its first action, the last one clears `BUSY`. -/
theorem drawing_run (acts : List WriteAction) (l : List Agent) (h : Inv s) (hb : s.busy = true) (hv : s.vsync = true)
    (hp : s.pend = acts) (hs : s.sched = List.replicate (acts.length + 1) .de ++ l) :
    Host.Core.run core (acts.length + 1) s =
      .next (paint acts { s with pend := [], busy := false, sched := l, turn := s.turn + (acts.length + 1) }) := by
  induction acts generalizing s with
  | nil =>
    have hstep : core.step s = .next (deFinish (takeTurn s)) :=
      (step_of_sched h.cfgWf hs).trans (deStep_finish hb hp)
    refine (run_one (M := core) s).trans (hstep.trans ?_)
    rw [deFinish, takeTurn, hp, hs]
    rfl
  | cons w acts ih =>
    have hinv : Inv (takeTurn s) := h.scheduled _ _
    have hwrite := deStep_write hinv hb hv hp
    have hstep : core.step s = _ := (step_of_sched h.cfgWf hs).trans hwrite
    have hturns : s.turn + (acts.length + 1 + 1) = s.turn + 1 + (acts.length + 1) := by omega
    rw [List.length_cons, run_succ_of_step (M := core) hstep, ih (hinv.deStep hwrite) hb hv rfl (congrArg List.tail hs),
      hturns]
    rfl

/-- Settles O35: the run of the Draw Engine over the whole of `PEND`, and the frame of its painting. -/
theorem commandRunsToCompletion : Obligations.CommandRunsToCompletion :=
  fun s rest h hb hv hs =>
    (drawing_run s.pend rest h hb hv rfl hs).trans (congrArg Host.Outcome.next (paint_frame s.pend s [] false rest _))

end Sys2Proof.Machine
end

section
/-! The columns a command can write: POINT, LINE, RECT, RECTR, TEXT, TEXTA and the row commands stay out of the padding
(R77). -/
namespace Sys2Proof.Machine

variable {c : Cfg} {w : WriteAction}

/-- The byte a write action stores to holds pixels of the display: it is in one of the first `HB` columns of its row. -/
def WriteAction.inDisplay (c : Cfg) (w : WriteAction) : Prop := w.address % c.cols < c.hb

theorem WriteAction.inDisplay_of_address {y b : Nat} (hb : b < c.hb) (ha : w.address = y * c.cols + b) :
    w.inDisplay c := by
  have hcols : b < c.cols := Nat.lt_of_lt_of_le hb (Nat.le_add_right _ _)
  rwa [WriteAction.inDisplay, ha, Nat.mul_add_mod', Nat.mod_eq_of_lt hcols]

/-- The byte of a display column is not a padding byte (R61). -/
theorem bit_inDisplay {x y : Nat} {m : Byte} {f : BitFn} (hx : x < c.pixelsX) :
    (WriteAction.bit (pixAddress c x y) m f).inDisplay c :=
  WriteAction.inDisplay_of_address (Nat.div_lt_of_lt_mul hx) rfl

/-! ### Points and lines -/

/-- The one action of a point is at a pixel inside the display (R180). -/
theorem pointActs_inDisplay {r : Option Rect} {x y : Int} {rop : RasterOp} (h : w ∈ pointActs c r x y rop) :
    w.inDisplay c := by
  unfold pointActs at h
  split at h
  · rename_i hin
    simp only [inside, Bool.and_eq_true, decide_eq_true_eq] at hin
    obtain ⟨⟨⟨⟨hx0, hx⟩, -⟩, -⟩, -⟩ := hin
    rw [List.mem_singleton.1 h]
    exact bit_inDisplay (by omega)
  · simp at h

theorem lineActs_inDisplay {r : Option Rect} {x0 y0 x1 y1 : Int} {rop : RasterOp} (h : w ∈ lineActs c r x0 y0 x1 y1 rop) :
    w.inDisplay c := by
  obtain ⟨p, -, hp⟩ := List.mem_flatMap.1 h
  exact pointActs_inDisplay hp

theorem rectActs_inDisplay {x0 y0 x1 y1 : Int} {rop : RasterOp} (h : w ∈ rectActs c x0 y0 x1 y1 rop) :
    w.inDisplay c := by
  simp only [rectActs, List.mem_append] at h
  obtain ((h | h) | h) | h := h <;> exact lineActs_inDisplay h

/-! ### Bitmaps that end at the right edge, and text -/

theorem bltRow_inDisplay {x y n : Nat} {bits : Nat → Bool} {rop : RasterOp} (hx : x + n ≤ c.pixelsX)
    (h : w ∈ bltRow c x y n bits rop) : w.inDisplay c := by
  obtain ⟨j, hj, hw⟩ := List.mem_filterMap.1 h
  split at hw
  · obtain rfl := Option.some.inj hw
    have hn : j < n := List.mem_range.1 hj
    exact bit_inDisplay (by omega)
  · simp at hw

theorem bltRows_inDisplay {x y n : Nat} {src : Nat → Nat → Bool} {rop : RasterOp} {rows r : Nat}
    (hx : x + n ≤ c.pixelsX) (h : w ∈ bltRows c x y n src rop rows r) : w.inDisplay c := by
  induction rows generalizing r with
  | zero => simp [bltRows] at h
  | succ rows ih =>
    unfold bltRows at h
    split at h
    · simp at h
    · exact (List.mem_append.1 h).elim (bltRow_inDisplay hx) ih

/-- R200 never cuts a bitmap at the right edge, so it stays out of the padding when it is not wider than what is left. -/
theorem bltActs_inDisplay {x y n m : Int} {src : Nat → Nat → Bool} {rop : RasterOp} (hx : x + n ≤ c.pixelsX)
    (h : w ∈ bltActs c x y n m src rop) : w.inDisplay c := by
  unfold bltActs at h
  split at h
  · simp at h
  · split at h
    · simp at h
    · exact bltRows_inDisplay (by omega) h

/-- A text run that stops at the display edge or before it draws only whole glyph cells inside the display (R204). -/
theorem textRun_inDisplay {y gh xlim : Int} {rop : RasterOp} {chars : List Byte} {xc : Int} (hlim : xlim ≤ c.pixelsX)
    (h : w ∈ textRun c y gh xlim rop chars xc) : w.inDisplay c := by
  induction chars generalizing xc with
  | nil => simp [textRun] at h
  | cons ch rest ih =>
    unfold textRun at h
    split at h
    · exact ih h
    · split at h
      · simp at h
      · exact (List.mem_append.1 h).elim (bltActs_inDisplay (by omega)) ih

theorem textLimit_le (r : Rect) (al : Align) : textLimit c r al ≤ c.pixelsX := by
  cases al with
  | left => exact min_le_left _ _
  | right => exact le_rfl

theorem textActs_inDisplay {r : Option Rect} {chars : List Byte} {al : Align} {rop : RasterOp}
    (h : w ∈ textActs c r chars al rop) : w.inDisplay c := by
  cases r with
  | none => exact textRun_inDisplay le_rfl h
  | some r => exact textRun_inDisplay (textLimit_le r al) h

/-! ### Row bands -/

/-- A band holds only the visible bytes of its rows (R220). -/
theorem rowsActs_inDisplay {y : Int} {n : Nat} {g : ByteFn} (h : w ∈ rowsActs c y n g) : w.inDisplay c := by
  obtain ⟨i, -, hi⟩ := List.mem_flatMap.1 h
  unfold rowActs at hi
  split at hi
  · obtain ⟨k, hk, rfl⟩ := List.mem_map.1 hi
    exact WriteAction.inDisplay_of_address (List.mem_range.1 hk) rfl
  · simp at hi

/-- Settles O53, one write list at a time. -/
theorem onlyBitbltAndClearReachPadding : Obligations.OnlyBitbltAndClearReachPadding := by
  intro c _ w h
  obtain ⟨r, x, y, rop, h⟩ | ⟨r, x0, y0, x1, y1, rop, h⟩ | ⟨x0, y0, x1, y1, rop, h⟩ | ⟨r, rop, h⟩ |
    ⟨r, chars, al, rop, h⟩ | ⟨x, y, chars, rop, al, h⟩ | ⟨y, n, g, h⟩ := h
  · exact pointActs_inDisplay h
  · exact lineActs_inDisplay h
  · exact rectActs_inDisplay h
  · exact rectActs_inDisplay h
  · exact textActs_inDisplay h
  · exact textRun_inDisplay le_rfl h
  · exact rowsActs_inDisplay h

end Sys2Proof.Machine
end

section
/-! Decoding a command word: which words are legal, and what each bit range of a legal word is read as (R91, R102). -/
namespace Sys2Proof

/-! ### The encoding of each field -/

theorem RasterOp.ofBits_toBits (r : RasterOp) : RasterOp.ofBits r.toBits = r := by cases r <;> rfl

theorem RectIx.ofBits_toBits (r : RectIx) : RectIx.ofBits r.toBits = r := by cases r <;> rfl

theorem Align.ofBit_toBit (a : Align) : Align.ofBit a.toBit = a := by cases a <;> rfl

theorem Instr.opcode_ne_zero (i : Instr) : i.opcode ≠ 0#4 := by cases i <;> simp [Instr.opcode]

theorem Instr.opcode_ne_fifteen (i : Instr) : i.opcode ≠ 15#4 := by cases i <;> simp [Instr.opcode]

/-! ### The bit ranges of an encoded command -/

theorem encode_reservedBits (i : Instr) : (encode i).extractLsb' 12 4 = 0#4 := by
  unfold encode
  repeat rw [BitVec.extractLsb'_append_eq_of_le (by decide)]
  exact BitVec.extractLsb'_eq_self

theorem encode_opcodeBits (i : Instr) : (encode i).extractLsb' 0 4 = i.opcode :=
  BitVec.extractLsb'_append_eq_right

theorem encode_fieldBits (i : Instr) :
    (encode i).extractLsb' 10 2 = i.fields.rb.toBits ∧ (encode i).extractLsb' 8 2 = i.fields.ra.toBits ∧
      (encode i).extractLsb' 7 1 = BitVec.ofBool i.fields.nr ∧
      (encode i).extractLsb' 6 1 = BitVec.ofBool i.fields.al.toBit ∧
      (encode i).extractLsb' 4 2 = i.fields.rop.toBits := by
  unfold encode
  refine ⟨?_, ?_, ?_, ?_, ?_⟩
  all_goals
    repeat rw [BitVec.extractLsb'_append_eq_of_le (by decide)]
    exact BitVec.extractLsb'_append_eq_right

theorem ofWord_encode (i : Instr) : Fields.ofWord (encode i) = i.fields := by
  obtain ⟨hrb, hra, hnr, hal, hrop⟩ := encode_fieldBits i
  rw [← ofBool_getLsbD_eq_extractLsb', BitVec.ofBool_eq_iff_eq] at hnr hal
  simp only [Fields.ofWord, hrb, hra, hnr, hal, hrop, RectIx.ofBits_toBits, RasterOp.ofBits_toBits, Align.ofBit_toBit]

/-- A command's word in the ranges the decoder reads (R91, R102). -/
theorem encode_bits (i : Instr) :
    (encode i).extractLsb' 12 4 = 0#4 ∧ i.opcode = (encode i).extractLsb' 0 4 ∧ i.fields = .ofWord (encode i) :=
  ⟨encode_reservedBits i, (encode_opcodeBits i).symm, (ofWord_encode i).symm⟩

/-! ### What `decode` answers -/

/-- A word decodes to a command exactly when its top bits are 0 and it has the command's opcode and fields (R102). -/
theorem decode_ok_iff {w : Word} {i : Instr} :
    decode w = .ok i ↔ w.extractLsb' 12 4 = 0#4 ∧ i.opcode = w.extractLsb' 0 4 ∧ i.fields = .ofWord w := by
  constructor
  · intro h
    rw [← encode_of_decode h]
    exact encode_bits i
  · rintro ⟨hz, hop, hf⟩
    have hz' : ¬w.extractLsb' 12 4 ≠ 0 := not_not.2 hz
    rw [decode, if_neg hz', ← hop, ← hf]
    cases i <;> rfl

/-- A rejected word has a nonzero top bit or an opcode that the table does not have (R98). -/
theorem decode_error {w : Word} {e : IllegalWord} (h : decode w = .error e) :
    w.extractLsb' 12 4 ≠ 0#4 ∨ w.extractLsb' 0 4 = 0#4 ∨ w.extractLsb' 0 4 = 15#4 := by
  unfold decode at h
  split at h
  · exact .inl ‹_›
  · split at h
    case h_1 hop => exact .inr (.inl (BitVec.eq_of_toNat_eq hop))
    case h_16 =>
      have hlt := (w.extractLsb' 0 4).isLt
      simp only [imp_false] at *
      exact .inr (.inr (BitVec.eq_of_toNat_eq (show _ = 15 by omega)))
    all_goals simp at h

theorem decode_encode (i : Instr) : decode (encode i) = .ok i :=
  decode_ok_iff.2 (encode_bits i)

/-! ### The bit ranges as numbers -/

theorem extractLsb'_toNat_eq_div_mod (w : Word) (n m : Nat) :
    (w.extractLsb' n m).toNat = w.toNat / 2 ^ n % 2 ^ m := by
  rw [BitVec.extractLsb'_toNat, Nat.shiftRight_eq_div_pow]

theorem getLsbD_eq_div_mod (w : Word) (n : Nat) : w.getLsbD n = decide (w.toNat / 2 ^ n % 2 = 1) :=
  Nat.testBit_eq_decide_div_mod_eq

theorem extractLsb'_eq_iff (w : Word) (n m : Nat) (v : BitVec m) :
    w.extractLsb' n m = v ↔ w.toNat / 2 ^ n % 2 ^ m = v.toNat := by
  rw [← BitVec.toNat_inj, extractLsb'_toNat_eq_div_mod]

/-- The legal words are those with `Z = 0` and an `OP` of the table (R98), here as the statements write these ranges. -/
theorem decode_ok_of_legal {w : Word} (h : w.toNat / 4096 = 0 ∧ w.toNat % 16 ≠ 0 ∧ w.toNat % 16 ≠ 15) :
    ∃ i, decode w = .ok i := by
  cases hdec : decode w with
  | ok i => exact ⟨i, rfl⟩
  | error e =>
    have hill := decode_error hdec
    simp only [ne_eq, extractLsb'_eq_iff, BitVec.toNat_ofNat] at hill
    omega

theorem decode_error_of_illegal {w : Word} (h : w.toNat / 4096 ≠ 0 ∨ w.toNat % 16 = 0 ∨ w.toNat % 16 = 15) :
    ∃ e, decode w = .error e := by
  cases hdec : decode w with
  | error e => exact ⟨e, rfl⟩
  | ok i =>
    obtain ⟨hz, hop, -⟩ := decode_ok_iff.1 hdec
    have h0 := i.opcode_ne_zero
    have hF := i.opcode_ne_fifteen
    have hlt := w.isLt
    simp only [hop, ne_eq, extractLsb'_eq_iff, BitVec.toNat_ofNat] at hz h0 hF
    omega

/-! ### The obligations -/

/-- Settles O1: the bit ranges of an encoded command are its opcode and its fields, which is what decoding reads. -/
theorem decodeEncodeRoundTrip : Obligations.DecodeEncodeRoundTrip := decode_encode

/-- Settles O2: the bit ranges of a legal word, joined again, are the word. -/
theorem encodeDecodeRoundTrip : Obligations.EncodeDecodeRoundTrip := fun _ _ => encode_of_decode

/-- Settles O3: the answer of the decoder bit range by bit range, each range then as a number. -/
theorem decodeReadsEveryField : Obligations.DecodeReadsEveryField := by
  refine fun w => ⟨decode_error_of_illegal, fun hlegal => ?_⟩
  obtain ⟨i, hdec⟩ := decode_ok_of_legal hlegal
  obtain ⟨-, hop, hf⟩ := decode_ok_iff.1 hdec
  refine ⟨i, hdec, ?_⟩
  simp only [hop, hf, Fields.ofWord, RasterOp.toBits_ofBits, RectIx.toBits_ofBits, Align.toBit_ofBit,
    extractLsb'_toNat_eq_div_mod, getLsbD_eq_div_mod, Nat.reducePow, Nat.div_one, and_self]

/-- Settles O5: the eight closed words are decoded by evaluation. -/
theorem decodesTheSpecsOwnWords : Obligations.DecodesTheSpecsOwnWords :=
  ⟨rfl, rfl, rfl, rfl, rfl, rfl, rfl, rfl⟩

end Sys2Proof
end

section
/-! The fields a command does not list (R96, R97). -/
namespace Sys2Proof.Machine

variable {s t : State}

/-! ### Launches -/

/-- What a command does inside the launch step rests only on the fields R96 lists for it. -/
theorem immediateEffect_canonical (i : Instr) : immediateEffect i.canonical = immediateEffect i := by
  cases i <;> rfl

theorem commandWrites_canonical (i : Instr) (s : State) : commandWrites i.canonical s = commandWrites i s := by
  cases i <;> rfl

/-- The immediate commands neither read `CMD` nor write it after the launch has stored their word (R161). -/
theorem immediateEffect_withCmd {i : Instr} {e : State → State} (h : immediateEffect i = some e) (s : State) (w : Word) :
    e { s with cmd := w } = { e s with cmd := w } := by
  cases i with
  | copyrect f | getcrect f | init f =>
    obtain rfl := Option.some.inj h
    rfl
  | _ => simp [immediateEffect] at h

/-- Launched from an idle block, commands that agree in the listed fields differ only in the word `CMD` holds (R97). -/
theorem exec_of_canonical_eq {i j : Instr} (h : i.canonical = j.canonical) (hb : s.busy = false) :
    ∃ t, exec i s = .next t ∧ exec j s = .next { t with cmd := encode j } := by
  have heffect : immediateEffect i = immediateEffect j := by
    rw [← immediateEffect_canonical i, h, immediateEffect_canonical]
  have hwrites : commandWrites i s = commandWrites j s := by
    rw [← commandWrites_canonical i, h, commandWrites_canonical]
  rw [exec_eq, exec_eq, heffect, hwrites]
  cases he : immediateEffect j with
  | none => exact ⟨_, launchDrawing_next.2 (.inr ⟨hb, rfl⟩), launchDrawing_next.2 (.inr ⟨hb, rfl⟩)⟩
  | some e =>
    refine ⟨_, launchImmediate_next.2 (.inr ⟨hb, rfl⟩), launchImmediate_next.2 (.inr ⟨hb, ?_⟩)⟩
    exact (immediateEffect_withCmd he { s with cmd := encode i } (encode j)).symm

/-! ### The command lines -/

/-- A HOST step that writes `CMD` only with the word of a command whose ignored fields are 0 (R97). -/
def HostAct.canonicalCmd (a : HostAct) : Prop :=
  ∀ w, a = .write 0x00 w → ∃ i : Instr, decode w = .ok i ∧ i.canonical = i

theorem canonicalCmd_cmdLine_iff (i : Instr) : (cmdLine i).canonicalCmd ↔ i.canonical = i := by
  constructor
  · intro h
    obtain ⟨j, hdec, hj⟩ := h (encode i) rfl
    obtain rfl := Except.ok.inj ((decode_encode i).symm.trans hdec)
    exact hj
  · intro h w hw
    obtain ⟨-, rfl⟩ := HostAct.write.inj hw
    exact ⟨i, decode_encode i, h⟩

theorem Reg.index_ne_zero {r : Reg} (h : r ≠ .cmd) : r.index ≠ 0x00 := by
  cases r with
  | cmd => exact absurd rfl h
  | rcx i | rcy i | rcw i | rch i => cases i <;> decide
  | _ => decide

theorem canonicalCmd_wrLine {r : Reg} (v : Int) (h : r ≠ .cmd) : (wrLine r v).canonicalCmd :=
  fun _ hw => absurd (HostAct.write.inj hw).1 (Reg.index_ne_zero h)

theorem canonicalCmd_read (i : BitVec 5) : (HostAct.read i).canonicalCmd := fun _ h => nomatch h

theorem canonicalCmd_wait : HostAct.wait.canonicalCmd := fun _ h => nomatch h

@[simp] theorem RectArg.fields_rb (rc : RectArg) : rc.fields.rb = .rc0 := by cases rc <;> rfl

@[simp] theorem RectArg.fields_al (rc : RectArg) : rc.fields.al = .left := by cases rc <;> rfl

/-- Every line but the raw `WR CMD` expands to such steps: a command line sets only fields R96 lists (R100, R101). -/
theorem expand_canonicalCmd {l : HostLine} (h : ∀ v, l ≠ .wr .cmd v) : ∀ a ∈ l.expand, a.canonicalCmd := by
  cases l with
  | wr r v =>
    have hr : r ≠ .cmd := fun hcmd => h v (by rw [hcmd])
    simpa [HostLine.expand] using canonicalCmd_wrLine v hr
  | rd r => simp [HostLine.expand, canonicalCmd_read]
  | wait => simp [HostLine.expand, canonicalCmd_wait]
  | setrc n x y w h => simp [HostLine.expand, canonicalCmd_wrLine]
  | _ =>
    simp [HostLine.expand, canonicalCmd_cmdLine_iff, canonicalCmd_wrLine, canonicalCmd_read, canonicalCmd_wait,
      Instr.canonical, Fields.zero]

/-- Settles O4: an idle block's launch reads the listed fields only, and the lines are checked one mnemonic at a time. -/
theorem ignoredFieldsHaveNoEffect : Obligations.IgnoredFieldsHaveNoEffect :=
  ⟨fun _ j h => ⟨decode_encode j, fun _ hb => exec_of_canonical_eq h hb⟩,
    fun _ hl w hw => expand_canonicalCmd hl _ hw w rfl⟩

end Sys2Proof.Machine
end

section
/-! The sticky illegal-word bit (R98). -/
namespace Sys2Proof.Machine

variable {s t : State}

theorem putReg_ill (s : State) (i : BitVec 5) (v : Word) : (putReg s i v).ill = s.ill := by
  unfold putReg
  split <;> rfl

/-- An illegal word written to `CMD` of an idle block is stored and sets `ILL` (R98). -/
theorem writeReg_cmd_of_illegal {w : Word} (hb : s.busy = false)
    (hw : w.toNat / 4096 ≠ 0 ∨ w.toNat % 16 = 0 ∨ w.toNat % 16 = 15) :
    writeReg s 0x00 w = .next { s with cmd := w, ill := true } := by
  obtain ⟨e, hdec⟩ := decode_error_of_illegal hw
  rw [writeReg, if_pos rfl, writeCmd, hdec]
  simp [launchIllegal, hb]

/-- No register write clears `ILL`, unless it launches INIT from an idle block (R98). -/
theorem writeReg_ill {i : BitVec 5} {v : Word} (h : writeReg s i v = .next t) (hill : s.ill = true) :
    t.ill = true ∨ i = 0x00 ∧ s.busy = false ∧ ∃ f, decode v = .ok (.init f) := by
  obtain ⟨hi, hcmd⟩ | ⟨-, -, rfl⟩ | ⟨-, -, rfl⟩ := writeReg_next h
  · obtain ⟨c, hdec, hexec⟩ | ⟨-, rfl⟩ := writeCmd_next hcmd
    · obtain ⟨-, rfl⟩ | ⟨hb, ⟨f, rfl, -⟩ | ⟨rc, pend, busy, rfl⟩⟩ := exec_next hexec
      · exact .inl hill
      · exact .inr ⟨hi, hb, f, hdec⟩
      · exact .inl hill
    · exact .inl (by unfold launchIllegal; split <;> simp [hill])
  · exact .inl hill
  · exact .inl (by rw [putReg_ill, hill])

/-- A turn of the HOST clears `ILL` only where it launches INIT or asserts reset. -/
theorem hostTurn_ill (hturn : nextAgent s = .host) (h : hostStep (takeTurn s) = .next t) (hill : s.ill = true) :
    t.ill = true ∨ hostInits s ∨ hostResets s := by
  obtain ⟨-, rfl⟩ | ⟨i, rest, -, rfl⟩ | ⟨i, v, rest, hbox, h⟩ | ⟨rest, -, rfl⟩ | ⟨a, v, rest, -, h⟩ | ⟨rest, hbox, rfl⟩ :=
    hostStep_next h
  · exact .inl hill
  · exact .inl hill
  · obtain hkept | ⟨rfl, hb, f, hdec⟩ := writeReg_ill h hill
    · exact .inl hkept
    · exact .inr (.inl ⟨hturn, hb, v, f, congrArg List.head? hbox, hdec⟩)
  · split <;> exact .inl hill
  · obtain ⟨-, rfl⟩ := smWrite_next h
    exact .inl hill
  · exact .inr (.inr ⟨hturn, congrArg List.head? hbox⟩)

theorem tgStep_ill (h : tgStep s = .next t) : t.ill = s.ill := by
  obtain rfl := Host.Outcome.next.inj h
  split <;> simp [tick]

theorem teStep_ill (h : teStep s = .next t) : t.ill = s.ill := by
  obtain ⟨-, rfl⟩ | ⟨-, rfl⟩ | ⟨-, -, -, rfl⟩ | ⟨-, -, rfl⟩ | ⟨-, -, rfl⟩ | ⟨-, rfl⟩ := teStep_next h <;> simp

theorem deStep_ill (h : deStep s = .next t) : t.ill = s.ill := by
  obtain ⟨-, rfl⟩ | ⟨-, -, rfl⟩ | ⟨-, -, -, rfl⟩ | ⟨w, rest, -, -, -, -, rfl⟩ := deStep_next h <;> rfl

/-- `ILL` is sticky: only the HOST's INIT and reset clear it (R98). -/
theorem step_clears_ill (h : step s = .next t) (hs : s.ill = true) (ht : t.ill = false) : hostInits s ∨ hostResets s := by
  have hchanged : t.ill ≠ s.ill := by simp [hs, ht]
  obtain ⟨-, h⟩ := step_next h
  cases hturn : nextAgent s with
  | host =>
    rw [hturn] at h
    exact (hostTurn_ill hturn h hs).resolve_left (by simp [ht])
  | tg =>
    rw [hturn] at h
    exact absurd (tgStep_ill h) hchanged
  | te =>
    rw [hturn] at h
    exact absurd (teStep_ill h) hchanged
  | de =>
    rw [hturn] at h
    exact absurd (deStep_ill h) hchanged

/-- Settles O7: the illegal write by the decoder's answer, INIT by its launch, the rest by the agent whose turn it is. -/
theorem illegalWordIsStoredAndFlagged : Obligations.IllegalWordIsStoredAndFlagged :=
  ⟨fun _ _ => writeReg_cmd_of_illegal, fun _ => rfl,
    fun _ _ hb => ⟨_, launchImmediate_next.2 (.inr ⟨hb, rfl⟩), videoInit_ill _⟩, fun _ _ => step_clears_ill⟩

end Sys2Proof.Machine
end

section
/-! The pseudo-instruction WAIT (R101). -/
namespace Sys2Proof.Machine

/-- A WAIT records one read of `STATUS` and stays the HOST's next step while `BUSY = 1`. -/
theorem hostStep_wait {s : State} {rest : List HostAct} (h : s.inbox = .wait :: rest) :
    hostStep s = .next { s with
      reads := s.reads ++ [{ index := 0x01, value := statusWord s }]
      inbox := if s.busy then .wait :: rest else rest } := by
  have hread : hostStep s = .next (readStep (if s.busy then s else { s with inbox := rest }) 0x01) := by
    unfold hostStep
    rw [h]
  rw [hread]
  by_cases hb : s.busy = true
  · rw [if_pos hb, if_pos hb, ← h]
    rfl
  · rw [if_neg hb, if_neg hb]
    rfl

/-- Settles O13: bit 0 of `STATUS` is `BUSY`. -/
theorem waitPollsUntilIdle : Obligations.WaitPollsUntilIdle := by
  intro s rest hbox
  obtain ⟨hbusy, -⟩ := statusReflectsTheState s
  rw [hostStep_wait hbox, hbusy]

end Sys2Proof.Machine
end

section
/-! The invariant along every step (R39), and the position the Timing Generator counts (R120, R121, R124). -/
namespace Sys2Proof.Machine

/-- Settles O18: taking the turn touches nothing of the invariant, and the turn of every agent keeps it. -/
theorem stepKeepsInv : Obligations.StepKeepsInv := by
  intro s t hinv h
  obtain ⟨-, hturn⟩ := step_next h
  exact (hinv.scheduled s.sched.tail (s.turn + 1)).agentStep hturn

/-! ### The position after `n` ticks -/

@[simp] theorem tick_cfg (s : State) : (tick s).cfg = s.cfg := by simp [tick]

theorem tick_hcnt (s : State) : (tick s).hcnt = nextCount s.hcnt s.cfg.hTotal := by simp [tick]

theorem tick_vcnt (s : State) :
    (tick s).vcnt = if s.hcnt.toNat + 1 = s.cfg.hTotal then nextCount s.vcnt s.cfg.vTotal else s.vcnt := by simp [tick]

@[simp] theorem tick_iterate_cfg (s : State) (n : Nat) : (tick^[n] s).cfg = s.cfg := by
  induction n with
  | zero => rfl
  | succ n ih => rw [Function.iterate_succ_apply', tick_cfg, ih]

/-- A counter that shows `x` modulo its period shows `x + 1` modulo its period next; its 16 bits do not wrap (R8). -/
theorem nextCount_toNat {v : Word} {total x : Nat} (hpos : 0 < total) (hmax : total ≤ 65535) (hv : v.toNat = x % total) :
    (nextCount v total).toNat = (x + 1) % total := by
  have hlt : x % total < total := Nat.mod_lt x hpos
  rw [← Nat.mod_add_mod, ← hv]
  unfold nextCount
  split
  case isTrue hwrap =>
    rw [hwrap, Nat.mod_self]
    rfl
  case isFalse hnext =>
    rw [BitVec.toNat_ofNat, Nat.mod_eq_of_lt (by omega), Nat.mod_eq_of_lt (by omega)]

/-- The tick that wraps the line counter is the one that begins a line period. -/
theorem mod_add_one_eq_iff_dvd {x total : Nat} (hpos : 0 < total) : x % total + 1 = total ↔ total ∣ x + 1 := by
  obtain ⟨last, rfl⟩ := Nat.exists_eq_add_one.2 hpos
  rw [Nat.dvd_iff_mod_eq_zero, Nat.succ_mod_succ_eq_zero_iff, Nat.add_right_cancel_iff]

theorem Cfg.periods_le_of_wf {c : Cfg} (h : c.wf = true) : c.hTotal ≤ 65535 ∧ c.vTotal ≤ 65535 := by
  simp only [Cfg.wf, Cfg.timingOk, Bool.and_eq_true, decide_eq_true_eq] at h
  obtain ⟨⟨-, ⟨⟨⟨⟨⟨hH, -⟩, -⟩, hV⟩, -⟩, -⟩⟩, -⟩ := h
  exact ⟨hH, hV⟩

/-- Settles O22, by induction on the number of ticks: the line counter goes from `n / H_TOTAL` to `(n + 1) / H_TOTAL`
exactly in the ticks that wrap `HCNT`. -/
theorem ticksCountThePosition : Obligations.TicksCountThePosition := by
  intro s n hwf hH hV hh hv
  obtain ⟨hHmax, hVmax⟩ := Cfg.periods_le_of_wf hwf
  induction n with
  | zero => simp [hh, hv]
  | succ n ih =>
    obtain ⟨ihh, ihv⟩ := ih
    rw [Function.iterate_succ_apply', tick_hcnt, tick_vcnt, tick_iterate_cfg]
    refine ⟨nextCount_toNat hH hHmax ihh, ?_⟩
    rw [ihh, Nat.succ_div]
    simp only [mod_add_one_eq_iff_dvd hH]
    split
    · exact nextCount_toNat hV hVmax ihv
    · exact ihv

/-! ### The events of a tick -/

/-- What the line event can do, field by field (R123, R141). -/
theorem raiseLine_eq (s : State) :
    raiseLine s = { s with
      test := if lineEvent s = true ∧ s.vsync = true ∧ s.test = .idle then .armed else s.test
      k := if lineEvent s = true ∧ s.vsync = true ∧ s.test = .idle then 0 else s.k } := by
  simp only [raiseLine, Bool.and_eq_true, decide_eq_true_eq, and_assoc]
  split <;> rfl

/-- The line event arms the engine when `vsync` was set before the tick or the frame event of the same tick sets it. -/
theorem lineEvent_arms_after_raiseFrame (s : State) :
    (lineEvent (raiseFrame s) = true ∧ (raiseFrame s).vsync = true ∧ (raiseFrame s).test = .idle) ↔
      s.hcnt.toNat = s.cfg.hBp ∧ (s.vsync = true ∨ s.hcnt.toNat = 0 ∧ s.vcnt.toNat = s.cfg.vBp) ∧ s.test = .idle := by
  have hline : lineEvent (raiseFrame s) = lineEvent s := rfl
  rw [hline]
  simp only [lineEvent, frameEvent, raiseFrame_vsync, raiseFrame_test, Bool.or_eq_true, Bool.and_eq_true, decide_eq_true_eq]

/-- Settles O21: with `RUN = 1` the turn is the advance after the two events; with `RUN = 0` it is nothing. -/
theorem tickFollowsItsRule : Obligations.TickFollowsItsRule := by
  refine fun s => ⟨fun hrun => ?_, fun hrun => ?_⟩
  · simp [tgStep, hrun]
  · have hturn : tgStep s = .next (tick s) := by simp [tgStep, hrun]
    rw [hturn, tick, raiseLine_eq]
    simp only [lineEvent_arms_after_raiseFrame]
    rfl

end Sys2Proof.Machine
end

section
/-! The scanline Transfer Engine: its steps, a whole row, a lost arm request (R142 to R148). -/
namespace Sys2Proof.Machine

variable {s t : State}

/-! ### One turn of the engine in each of its states -/

theorem teStep_of_armed (h : s.test = .armed) : teStep s = .next (teStart s) := by rw [teStep, h]

/-- `shift` (R143): in a state of the invariant the byte it sends exists. -/
theorem teStep_of_active (hinv : Inv s) (h : s.test = .active) (hk : s.k < s.cfg.cols) :
    teStep s = .next { s with
      vout := s.vout ++ [{ row := s.row.toNat, k := s.k, byte := s.fsByte (s.src.toNat + s.k) }], k := s.k + 1 } := by
  have hread : fsRead s (s.src.toNat + s.k) = some (s.fsByte (s.src.toNat + s.k)) :=
    fsRead_some.2 ⟨hinv.transferByte_lt hk, rfl⟩
  simp only [teStep, h, if_pos hk, teShift, hread]

theorem teStep_of_row_sent (h : s.test = .active) (hk : s.k = s.cfg.cols) : teStep s = .next (teDone s) := by
  simp only [teStep, h, hk, lt_irrefl, if_false, if_true]

theorem teStep_of_complete (h : s.test = .complete) : teStep s = .next (teComplete s) := by rw [teStep, h]

/-! ### The cursor after a row -/

theorem teComplete_of_last_row (h : s.row.toNat + 1 = s.cfg.vl) :
    teComplete s = { s with row := 0, src := 0, vsync := false, k := 0, test := .idle } := if_pos h

/-- Before the last row the 16 bits of `ROW` do not wrap, as `VL` is at most 32767 (R7); the invariant after the step
then gives `SRC`. -/
theorem teComplete_advances (hinv : Inv s) (h : s.test = .complete) (hrow : s.row.toNat + 1 ≠ s.cfg.vl) :
    teComplete s = { s with row := (teComplete s).row, src := (teComplete s).src, k := 0, test := .idle } ∧
      (teComplete s).row.toNat = s.row.toNat + 1 ∧ (teComplete s).src.toNat = s.src.toNat + s.cfg.cols := by
  have hnext : (teComplete s).row.toNat = s.row.toNat + 1 := by
    obtain ⟨-, -, hvl⟩ := Cfg.geometry_of_wf hinv.cfgWf
    have := hinv.rowInRange
    rw [teComplete, if_neg hrow]
    exact Nat.mod_eq_of_lt (by omega)
  refine ⟨by rw [teComplete, if_neg hrow], hnext, ?_⟩
  rw [(hinv.teComplete h).srcOfRow, hnext, teComplete_cfg, hinv.srcOfRow, Nat.add_one_mul]

theorem teComplete_idle (s : State) : (teComplete s).test = .idle ∧ (teComplete s).k = 0 := by
  unfold teComplete
  split <;> exact ⟨rfl, rfl⟩

theorem teComplete_fsByte (s : State) (a : Nat) : (teComplete s).fsByte a = s.fsByte a :=
  fsByte_congr (teComplete_fs s) (teComplete_fsFill s) (teComplete_resets s) a

/-! ### What goes on the wire -/

/-- The entry of the video output history for byte `k` of the row the cursor is on (R36, R143). -/
def State.wireEntry (s : State) (k : Nat) : Shifted :=
  { row := s.row.toNat, k := k, byte := s.fsByte (s.row.toNat * s.cfg.cols + k) }

/-- The entry `shift` appends is that of the row (R146): `SRC` is the row's address. -/
theorem Inv.wireEntry_eq (h : Inv s) (k : Nat) :
    s.wireEntry k = { row := s.row.toNat, k := k, byte := s.fsByte (s.src.toNat + k) } := by
  rw [State.wireEntry, h.srcOfRow]

theorem teStep_vout (hinv : Inv s) (h : teStep s = .next t) :
    t.vout = s.vout ∨ ∃ k, k < s.cfg.cols ∧ t.vout = s.vout ++ [s.wireEntry k] := by
  obtain ⟨-, rfl⟩ | ⟨-, rfl⟩ | ⟨-, hk, -, rfl⟩ | ⟨-, -, rfl⟩ | ⟨-, -, rfl⟩ | ⟨-, rfl⟩ := teStep_next h
  case inr.inr.inl => exact .inr ⟨s.k, hk, by rw [hinv.wireEntry_eq]⟩
  all_goals exact .inl (by simp)

/-! ### The engine stepping alone -/

/-- The state with `n` more bytes of the row on the wire and the engine `complete`, once `m` turns have been taken. -/
def State.rowSent (s : State) (n : Nat) (l : List Agent) (m : Nat) : State :=
  { s with
    vout := s.vout ++ (List.range' s.k n).map s.wireEntry
    k := s.cfg.cols, test := .complete, sched := l, turn := m }

theorem Inv.rowSent (h : Inv s) (hte : s.test ≠ .idle) (n : Nat) (l : List Agent) (m : Nat) : Inv (s.rowSent n l m) :=
  { h with
    kInRange := le_rfl
    kOfIdle := by simp [State.rowSent]
    kOfComplete := fun _ => rfl
    vsyncLow := fun hv => absurd (h.vsyncLow hv).2 hte }

/-- The next turn is the engine's, as the schedule says. -/
theorem core_step_te {l : List Agent} (hinv : Inv s) (hs : s.sched = .te :: l) (h : teStep (takeTurn s) = .next t) :
    core.step s = .next t := (step_of_sched hinv.cfgWf hs).trans h

/-- The induction on the bytes still to send: each turn sends one, then come `done` and `complete`. -/
theorem transfer_run (n : Nat) (l : List Agent) (hinv : Inv s) (h : s.test = .active) (hk : s.k + n = s.cfg.cols)
    (hs : s.sched = List.replicate (n + 2) .te ++ l) :
    Host.Core.run core (n + 2) s = .next (teComplete (s.rowSent n l (s.turn + (n + 2)))) := by
  induction n generalizing s with
  | zero =>
    have hdone := teStep_of_row_sent (s := takeTurn s) h hk
    have hcompleteInv : Inv (teDone (takeTurn s)) := (hinv.scheduled _ _).teStep hdone
    have hsched : (teDone (takeTurn s)).sched = .te :: l := congrArg List.tail hs
    have hsent : takeTurn (teDone (takeTurn s)) = s.rowSent 0 l (s.turn + 2) := by
      rw [takeTurn, hsched, State.rowSent, ← hk, List.range'_zero, List.map_nil, List.append_nil]
      rfl
    rw [run_succ_of_step (M := core) (core_step_te hinv hs hdone), ← hsent]
    exact (run_one (M := core) _).trans (core_step_te hcompleteInv hsched (teStep_of_complete rfl))
  | succ n ih =>
    have hturn : Inv (takeTurn s) := hinv.scheduled _ _
    have hshift := teStep_of_active hturn h (show s.k < s.cfg.cols by omega)
    rw [run_succ_of_step (M := core) (core_step_te hinv hs hshift),
      ih (hturn.teStep hshift) h (show s.k + 1 + n = s.cfg.cols by omega) (congrArg List.tail hs)]
    have hvout : s.vout ++ (List.range' s.k (n + 1)).map s.wireEntry =
        s.vout ++ [{ row := s.row.toNat, k := s.k, byte := s.fsByte (s.src.toNat + s.k) }] ++
          (List.range' (s.k + 1) n).map s.wireEntry := by
      rw [List.range'_succ, List.map_cons, hinv.wireEntry_eq s.k, List.append_cons]
    have hturns : s.turn + (n + 1 + 2) = s.turn + 1 + (n + 2) := by omega
    rw [State.rowSent, State.rowSent, hvout, hturns]
    rfl

/-- An armed row takes its `start` and is then sent from byte 0 on (R142, R148). -/
theorem armed_row_run (l : List Agent) (hinv : Inv s) (h : s.test = .armed)
    (hs : s.sched = List.replicate (s.cfg.cols + 3) .te ++ l) :
    Host.Core.run core (s.cfg.cols + 3) s =
      .next (teComplete (s.rowSent s.cfg.cols l (s.turn + (s.cfg.cols + 3)))) := by
  have hturn : Inv (takeTurn s) := hinv.scheduled _ _
  have hstart := teStep_of_armed (s := takeTurn s) h
  have hk : s.k + s.cfg.cols = s.cfg.cols := by rw [hinv.kOfIdle (.inr h), Nat.zero_add]
  have hturns : s.turn + (s.cfg.cols + 3) = s.turn + 1 + (s.cfg.cols + 2) := by omega
  rw [run_succ_of_step (M := core) (core_step_te hinv hs hstart), hturns]
  exact transfer_run s.cfg.cols l (hturn.teStep hstart) rfl hk (congrArg List.tail hs)

/-! ### The obligations of the engine's own steps -/

/-- Settles O25: `start` is the engine's step in `ARMED`. -/
theorem armedEngineStarts : Obligations.ArmedEngineStarts := fun _ => teStep_of_armed

/-- Settles O26: the invariant puts the byte inside the Frame Store; the eight bits are `videoBits` evaluated. -/
theorem activeEngineShifts : Obligations.ActiveEngineShifts :=
  ⟨fun _ hinv h hk => ⟨hinv.transferByte_lt hk, teStep_of_active hinv h hk⟩, fun _ => rfl⟩

/-- Settles O27: `done` is the engine's step once the whole row is sent. -/
theorem lastByteRaisesComplete : Obligations.LastByteRaisesComplete := fun _ => teStep_of_row_sent

/-- Settles O28: `complete` on the last row and on any other one. -/
theorem completeAdvancesOrWraps : Obligations.CompleteAdvancesOrWraps :=
  fun _ hinv h => ⟨fun hrow => (teStep_of_complete h).trans (congrArg _ (teComplete_of_last_row hrow)),
    fun hrow => ⟨_, teStep_of_complete h, teComplete_advances hinv h hrow⟩⟩

/-- Settles O29: of the engine's steps only `shift` records a byte, and it is byte `K` of the cursor's row. -/
theorem transferEngineOnlyReads : Obligations.TransferEngineOnlyReads :=
  fun _ _ hinv h => ⟨teStep_fsByte h, teStep_vout hinv h⟩

/-- Settles O30: the run ends in `complete` of the row that has all been sent, and the cursor moves as in O28. -/
theorem wholeRowGoesOut : Obligations.WholeRowGoesOut := by
  intro s rest hinv h hs
  have hbytes : (List.range s.cfg.cols).map s.wireEntry = (List.range' s.k s.cfg.cols).map s.wireEntry := by
    rw [List.range_eq_range', hinv.kOfIdle (.inr h)]
  obtain ⟨hidle, hk⟩ := teComplete_idle (s.rowSent s.cfg.cols rest (s.turn + (s.cfg.cols + 3)))
  refine ⟨_, armed_row_run rest hinv h hs, hidle, hk, teComplete_sched _, teComplete_fsByte _,
    (teComplete_vout _).trans (congrArg _ hbytes.symm), fun hrow => ?_, fun hrow => ?_⟩
  · rw [teComplete_of_last_row]
    exacts [⟨rfl, rfl, rfl⟩, hrow]
  · have hsent := hinv.rowSent (by simp [h]) s.cfg.cols rest (s.turn + (s.cfg.cols + 3))
    obtain ⟨hframe, hnext, -⟩ := teComplete_advances hsent rfl hrow
    exact ⟨hnext, by rw [hframe]; rfl⟩

/-! ### A lost arm request -/

theorem tgStep_cursor (h : tgStep s = .next t) : t.row = s.row ∧ t.src = s.src ∧ t.vout = s.vout := by
  obtain rfl := Host.Outcome.next.inj h
  split <;> simp [tick]

/-- Settles O31: the line event arms an idle engine only, and a tick has no other way into the engine. -/
theorem armWhileBusyIsLost : Obligations.ArmWhileBusyIsLost := by
  intro s _ hte
  obtain ⟨t, ht⟩ : ∃ t, tgStep s = .next t := ⟨_, rfl⟩
  obtain ⟨htest, hk⟩ := tgStep_transfer ht hte
  obtain ⟨hrow, hsrc, hvout⟩ := tgStep_cursor ht
  exact ⟨t, ht, htest, hk, hrow, hsrc, hvout, tgStep_fsByte ht⟩

end Sys2Proof.Machine
end

section
/-! No agent's turn faults, and the one refusal is the HOST's Source Memory write (R143, R162, R240, R274). -/
namespace Sys2Proof.Machine

/-- A Source Memory write is refused only while a command runs (R274, log 8). -/
theorem smWrite_answers_or_refuses (s : State) (a : Word) (v : Byte) :
    (∃ t, smWrite s a v = .next t) ∨ s.busy = true ∧ smWrite s a v = .refused (.sourceMemoryInUse a.toNat) := by
  unfold smWrite
  split
  · rename_i hrefuse
    obtain ⟨huse, -⟩ := hrefuse
    exact .inr ⟨(Bool.and_eq_true_iff.1 huse).1, rfl⟩
  · exact .inl ⟨_, rfl⟩

theorem hostStep_answers_or_refuses (s : State) :
    (∃ t, hostStep s = .next t) ∨ ∃ a v rest, s.inbox = .smWrite a v :: rest ∧ s.busy = true ∧
      hostStep s = .refused (.sourceMemoryInUse a.toNat) := by
  unfold hostStep
  split
  · exact .inl ⟨_, rfl⟩
  · exact .inl ⟨_, rfl⟩
  · exact .inl (writeReg_answers _ _ _)
  · exact .inl ⟨_, rfl⟩
  · rename_i a v rest hbox
    obtain hnext | ⟨hbusy, hrefused⟩ := smWrite_answers_or_refuses { s with inbox := rest } a v
    · exact .inl hnext
    · exact .inr ⟨a, v, rest, hbox, hbusy, hrefused⟩
  · exact .inl ⟨_, rfl⟩

/-- Settles O20: by the agent whose turn it is; the invariant keeps the addresses of the TE and the DE in range. -/
theorem stepNeverFaults : Obligations.StepNeverFaults := by
  intro s hinv
  have hturn : Inv (takeTurn s) := hinv.scheduled _ _
  have hstep : step s = agentStep (nextAgent s) (takeTurn s) := if_pos hinv.cfgWf
  rw [hstep]
  cases hagent : nextAgent s with
  | host =>
    obtain hnext | ⟨a, v, rest, hbox, hbusy, hrefused⟩ := hostStep_answers_or_refuses (takeTurn s)
    · exact .inl hnext
    · exact .inr ⟨a, v, rest, rfl, hbox, hbusy, hrefused⟩
  | tg => exact .inl ⟨_, rfl⟩
  | te => exact .inl (teStep_answers hturn)
  | de => exact .inl (deStep_answers hturn)

end Sys2Proof.Machine
end

section
/-! The gate: the Draw Engine's own steps, and the command that a closed gate and stopped timers hold (R163 to R169). -/
namespace Sys2Proof.Machine

variable {s t : State}

/-! ### The Draw Engine's turns -/

/-- While the gate is closed the engine has no step for a pending action (R163, R167). -/
theorem de_not_enabled_of_gate_closed (hv : s.vsync = false) (hp : s.pend ≠ []) : enabled .de s = false := by
  simp [enabled, hv, hp]

/-- What `write` leaves at every address (R163): the action reads the very byte it replaces. -/
theorem fsByte_after_action {w : WriteAction} (hfs : Memory.wf s.fsUnwritten s.fs) (a : Nat) :
    (s.fsPut w.address (w.apply (s.fsByte w.address))).fsByte a =
      if a = w.address then w.apply (s.fsByte a) else s.fsByte a := by
  rw [fsPut_fsByte hfs]
  split
  · rename_i ha
    rw [ha]
  · rfl

/-- Settles O32: with the gate closed the engine has no enabled step, with the gate open it performs the action. -/
theorem writeStepPerformsTheFirstAction : Obligations.WriteStepPerformsTheFirstAction := by
  intro s w rest hb hp
  refine ⟨fun hv => ?_, fun hinv hv => ?_⟩
  · exact agentStep_of_not_enabled (de_not_enabled_of_gate_closed hv (by simp [hp]))
  · exact ⟨_, deStep_write hinv hb hv hp, rfl, fsByte_after_action (s := { s with pend := rest }) hinv.fsCanonical⟩

/-- Settles O33: `finish` does not look at the gate. -/
theorem finishClearsBusy : Obligations.FinishClearsBusy := fun _ => deStep_finish

/-! ### The stuck command -/

/-- While a command runs, a turn of the HOST that does not reset the block writes only its own program, the reads it has
made and its Source Memory (R35, R160). -/
theorem hostStep_of_busy (hb : s.busy = true) (hreset : s.inbox.head? ≠ some .reset) (h : hostStep s = .next t) :
    ∃ inbox reads sm, t = { s with inbox := inbox, reads := reads, sm := sm } := by
  obtain ⟨-, rfl⟩ | ⟨i, rest, -, rfl⟩ | ⟨i, v, rest, -, h⟩ | ⟨rest, -, rfl⟩ | ⟨a, v, rest, -, h⟩ | ⟨rest, hbox, -⟩ :=
    hostStep_next h
  · exact ⟨_, _, _, rfl⟩
  · exact ⟨_, _, _, rfl⟩
  · rw [writeReg_of_busy (s := { s with inbox := rest }) i v hb] at h
    exact ⟨_, _, _, (Host.Outcome.next.inj h).symm⟩
  · rw [if_pos hb]
    exact ⟨_, _, _, rfl⟩
  · obtain ⟨-, rfl⟩ := smWrite_next h
    exact ⟨_, _, _, rfl⟩
  · exact absurd (congrArg List.head? hbox) hreset

/-- With the timers stopped and the gate closed, no agent but the HOST has an enabled step: the Transfer Engine is idle
because `vsync` is low (R39), and the Draw Engine waits for the gate (R169, R263). -/
theorem only_host_enabled (hinv : Inv s) (hrun : s.run = false) (hv : s.vsync = false) (hp : s.pend ≠ []) {a : Agent}
    (ha : a ≠ .host) : enabled a s = false := by
  obtain ⟨-, hidle⟩ := hinv.vsyncLow hv
  cases a with
  | host => exact absurd rfl ha
  | tg => exact hrun
  | te => simp [enabled, hidle]
  | de => exact de_not_enabled_of_gate_closed hv hp

/-- Settles O36: a turn of the HOST leaves the block alone while `BUSY = 1`, and no other agent has an enabled step. -/
theorem stuckUntilReset : Obligations.StuckUntilReset := by
  intro s t hinv hrun hv hb hp hnr h
  obtain ⟨-, h⟩ := step_next h
  have hframe : ∃ inbox reads sm, t = { takeTurn s with inbox := inbox, reads := reads, sm := sm } := by
    by_cases hturn : nextAgent s = .host
    · rw [hturn] at h
      exact hostStep_of_busy (s := takeTurn s) hb (fun hbox => hnr ⟨hturn, hbox⟩) h
    · have hturnInv : Inv (takeTurn s) := hinv.scheduled _ _
      rw [agentStep_of_not_enabled (only_host_enabled hturnInv hrun hv hp hturn)] at h
      exact ⟨_, _, _, (Host.Outcome.next.inj h).symm⟩
  obtain ⟨inbox, reads, sm, rfl⟩ := hframe
  exact ⟨hrun, hv, hb, rfl, rfl, fun _ => rfl⟩

end Sys2Proof.Machine
end

section
/-! What a launch of a drawing command leaves while `BUSY = 0`: POINT, LINE, RECT, RECTR (R180, R182, R185, R186). -/
namespace Sys2Proof.Machine

variable {s : State}

/-- With `BUSY = 0` a drawing command writes `CMD`, its write list and `BUSY` (R161). -/
theorem exec_drawing_of_idle {i : Instr} (hi : immediateEffect i = none) (hb : s.busy = false) :
    exec i s = .next { s with cmd := encode i, pend := commandWrites i s, busy := true } := by
  rw [exec_eq, hi]
  exact launchDrawing_next.2 (.inr ⟨hb, rfl⟩)

theorem inside_iff {c : Cfg} {x y : Int} :
    inside c x y = true ↔ 0 ≤ x ∧ x < c.pixelsX ∧ 0 ≤ y ∧ y < c.pixelsY := by
  simp [inside, and_assoc]

/-- The pixels a command's `rect` parameter lets through: all of them with `NR = 1`, those of `RC[RA]` otherwise (R96,
R170). -/
theorem inrect_rectOperand_iff {f : Fields} {x y : Int} :
    inrect (rectOperand f s) x y = true ↔
      f.nr = true ∨ (s.rc.get f.ra).x.toInt ≤ x ∧ x < (s.rc.get f.ra).x.toInt + (s.rc.get f.ra).w.toInt ∧
        (s.rc.get f.ra).y.toInt ≤ y ∧ y < (s.rc.get f.ra).y.toInt + (s.rc.get f.ra).h.toInt := by
  cases hnr : f.nr
  · simp only [rectOperand, hnr, Bool.false_eq_true, if_false, false_or, inrect, RectReg.value, s16, Bool.and_eq_true,
      decide_eq_true_eq, and_assoc]
  · simp [rectOperand, hnr, inrect]

/-- Settles O38: the pixel test of `point`, read off the registers. -/
theorem pointLaunches : Obligations.PointLaunches := by
  intro f s hb
  rw [exec_drawing_of_idle rfl hb]
  simp only [commandWrites, pointActs, Bool.and_eq_true, inside_iff, inrect_rectOperand_iff, s16]
  cases f.rop <;> rfl

/-- Settles O40: the write list is that of `line` by definition. -/
theorem lineLaunches : Obligations.LineLaunches :=
  fun _ _ hb => exec_drawing_of_idle rfl hb

/-- Settles O43: the write list is that of `rectangle` by definition. -/
theorem rectLaunches : Obligations.RectLaunches :=
  fun _ _ hb => exec_drawing_of_idle rfl hb

/-- The border of the null rectangle is that of the display, the border of a Rectangle its outermost pixels (R186). -/
theorem rectrActs_rectOperand (f : Fields) (s : State) (rop : RasterOp) :
    rectrActs s.cfg (rectOperand f s) rop =
      if f.nr then rectActs s.cfg 0 0 (s.cfg.pixelsX - 1) (s.cfg.pixelsY - 1) rop
      else rectActs s.cfg (s.rc.get f.ra).x.toInt (s.rc.get f.ra).y.toInt
        ((s.rc.get f.ra).x.toInt + (s.rc.get f.ra).w.toInt - 1)
        ((s.rc.get f.ra).y.toInt + (s.rc.get f.ra).h.toInt - 1) rop := by
  unfold rectrActs rectOperand
  split
  · simp only [Option.getD_none, Int.zero_add]
  · rfl

/-- Settles O44: the two cases of the `rect` parameter. -/
theorem rectrLaunches : Obligations.RectrLaunches := by
  intro f s hb
  rw [exec_drawing_of_idle rfl hb, ← rectrActs_rectOperand]
  rfl

end Sys2Proof.Machine
end

section
/-! What painting a write list leaves: its frame, and the pixel a `BIT` action addresses (R61, R162). -/
namespace Sys2Proof.Machine

variable {s : State}

/-! ### The painted state -/

theorem paint_append (l m : List WriteAction) (s : State) : paint (l ++ m) s = paint m (paint l s) :=
  List.foldl_append ..

/-- Painting changes the Frame Store and nothing else. -/
theorem paint_eq_with_fs (acts : List WriteAction) (s : State) : paint acts s = { s with fs := (paint acts s).fs } := by
  induction acts generalizing s with
  | nil => rfl
  | cons w acts ih => exact ih (s.fsPut w.address (w.apply (s.fsByte w.address)))

@[simp] theorem paint_cfg (acts : List WriteAction) (s : State) : (paint acts s).cfg = s.cfg := by
  rw [paint_eq_with_fs]

@[simp] theorem paint_fsUnwritten (acts : List WriteAction) (s : State) : (paint acts s).fsUnwritten = s.fsUnwritten := by
  rw [paint_eq_with_fs]
  rfl

/-- Painting keeps the canonical form of the Frame Store. -/
theorem paint_canonical (hfs : Memory.wf s.fsUnwritten s.fs) (acts : List WriteAction) :
    Memory.wf (paint acts s).fsUnwritten (paint acts s).fs := by
  induction acts generalizing s with
  | nil => exact hfs
  | cons w acts ih => exact ih (fsPut_wf hfs _ _)

/-- A painted state that reads as before is the state before: equal contents are equal data. -/
theorem paint_eq_self (hfs : Memory.wf s.fsUnwritten s.fs) {acts : List WriteAction}
    (h : ∀ a, (paint acts s).fsByte a = s.fsByte a) : paint acts s = s := by
  have hcanon := paint_canonical hfs acts
  unfold State.fsByte at h
  rw [paint_fsUnwritten] at h hcanon
  rw [paint_eq_with_fs, Memory.ext_of_wf hcanon hfs h]

/-! ### One `BIT` action -/

/-- What a bit function makes of the bit its mask selects (R14). -/
def BitFn.onBit : BitFn → Bool → Bool
  | .set, _ => true
  | .clr, _ => false
  | .tgl, b => !b
  | .keep, b => b

theorem BitFn.getLsbD_apply (f : BitFn) (m v : Byte) {i : Nat} (hi : i < 8) :
    (f.apply m v).getLsbD i = if m.getLsbD i then f.onBit (v.getLsbD i) else v.getLsbD i := by
  simp only [BitVec.getLsbD_eq_getElem hi]
  cases f <;> cases hm : m[i] <;> simp [BitFn.apply, BitFn.onBit, hm]

/-- The mask of column `x` selects the bit of that column, bit 7 leftmost (R61). -/
theorem getLsbD_pixMask (x x' : Nat) : (pixMask x).getLsbD (7 - x' % 8) = decide (x' % 8 = x % 8) := by
  have hbits : ∀ i < 8, ∀ j < 8, (0x80#8 >>> i).getLsbD (7 - j) = decide (j = i) := by decide
  exact hbits _ (Nat.mod_lt x (by decide)) _ (Nat.mod_lt x' (by decide))

/-- Two pixels of a row-major store share their byte exactly when they share row and byte column (R61). -/
theorem pixAddress_eq_iff {c : Cfg} {x y x' y' : Nat} (hx : x < 8 * c.cols) (hx' : x' < 8 * c.cols) :
    pixAddress c x' y' = pixAddress c x y ↔ y' = y ∧ x' / 8 = x / 8 := by
  have hb : x / 8 < c.cols := Nat.div_lt_of_lt_mul hx
  have hb' : x' / 8 < c.cols := Nat.div_lt_of_lt_mul hx'
  have hpos : 0 < c.cols := Nat.zero_lt_of_lt hb
  refine ⟨fun h => ?_, fun ⟨hy, hx⟩ => by rw [pixAddress, hy, hx, pixAddress]⟩
  have hrow := congrArg (· / c.cols) h
  have hcol := congrArg (· % c.cols) h
  simp only [pixAddress, Nat.mul_comm _ c.cols, Nat.mul_add_div hpos, Nat.mul_add_mod, Nat.div_eq_of_lt, Nat.mod_eq_of_lt,
    hb, hb', Nat.add_zero] at hrow hcol
  exact ⟨hrow, hcol⟩

/-- A `BIT` action at a pixel of the store, padding included, makes its function of that pixel and leaves every other. -/
theorem paint_bit_pixel (hfs : Memory.wf s.fsUnwritten s.fs) (f : BitFn) {x y x' y' : Nat} (hx : x < 8 * s.cfg.cols)
    (hx' : x' < 8 * s.cfg.cols) :
    (paint [.bit (pixAddress s.cfg x y) (pixMask x) f] s).pixel x' y' =
      if x' = x ∧ y' = y then f.onBit (s.pixel x' y') else s.pixel x' y' := by
  have hbyte : (paint [.bit (pixAddress s.cfg x y) (pixMask x) f] s).fsByte (pixAddress s.cfg x' y') =
      if pixAddress s.cfg x' y' = pixAddress s.cfg x y then f.apply (pixMask x) (s.fsByte (pixAddress s.cfg x' y'))
      else s.fsByte (pixAddress s.cfg x' y') :=
    fsByte_after_action (w := .bit _ _ f) hfs _
  rw [State.pixel, paint_cfg, hbyte]
  by_cases hadr : y' = y ∧ x' / 8 = x / 8
  · have hcol : x' % 8 = x % 8 ↔ x' = x ∧ y' = y := by omega
    rw [if_pos ((pixAddress_eq_iff hx hx').2 hadr), BitFn.getLsbD_apply _ _ _ (by omega),
      getLsbD_pixMask]
    simp only [decide_eq_true_eq, hcol, State.pixel]
  · have hpix : ¬ (x' = x ∧ y' = y) := by omega
    rw [if_neg (mt (pixAddress_eq_iff hx hx').1 hadr), if_neg hpix, State.pixel]

end Sys2Proof.Machine
end

section
/-! The picture POINT, LINE and RECT leave: one point under each raster op, a line drawn with COPY, and XOR drawn twice
(R181, R187). -/
namespace Sys2Proof.Machine

variable {s : State}

/-! ### One point -/

/-- The pixel is in the display and in the clip rectangle (R170, R180). -/
def visible (c : Cfg) (r : Option Rect) (x y : Int) : Bool := inside c x y && inrect r x y

theorem visible_iff {c : Cfg} {r : Option Rect} {x y : Int} :
    visible c r x y = true ↔ inside c x y = true ∧ inrect r x y = true := Bool.and_eq_true_iff

/-- `point` (R180). -/
theorem pointActs_eq (c : Cfg) (r : Option Rect) (x y : Int) (rop : RasterOp) :
    pointActs c r x y rop =
      if visible c r x y then [.bit (pixAddress c x.toNat y.toNat) (pixMask x.toNat) (pointFn rop)] else [] := rfl

/-- A visible point makes its raster op of its own pixel; nothing else of the picture changes, and a clipped point changes
nothing. -/
theorem paint_pointActs_pixel (hfs : Memory.wf s.fsUnwritten s.fs) (r : Option Rect) (x y : Int) (rop : RasterOp)
    {x' y' : Nat} (hx' : x' < 8 * s.cfg.cols) :
    (paint (pointActs s.cfg r x y rop) s).pixel x' y' =
      if visible s.cfg r x y ∧ x' = x ∧ y' = y then (pointFn rop).onBit (s.pixel x' y') else s.pixel x' y' := by
  rw [pointActs_eq]
  by_cases hv : visible s.cfg r x y
  · obtain ⟨hx0, hx, hy0, -⟩ := inside_iff.1 (visible_iff.1 hv).1
    have hcols : x.toNat < 8 * s.cfg.cols := by
      unfold Cfg.pixelsX at hx
      unfold Cfg.cols
      omega
    have hsame : x' = x.toNat ∧ y' = y.toNat ↔ visible s.cfg r x y ∧ x' = x ∧ y' = y := by
      simp only [hv, true_and]
      omega
    simp only [if_pos hv, paint_bit_pixel hfs _ hcols hx', hsame]
  · rw [if_neg hv, if_neg (hv ·.1)]
    rfl

/-- Settles O39: the pixel function of the pen at each raster op. -/
theorem pointDrawsOnePixel : Obligations.PointDrawsOnePixel := by
  intro s r x y rop hinv hin hrect x' y' hx' _
  rw [paint_pointActs_pixel hinv.fsCanonical r x y rop hx']
  simp only [visible_iff.2 ⟨hin, hrect⟩, true_and, Nat.cast_inj]
  by_cases h : x' = x ∧ y' = y
  · obtain ⟨rfl, rfl⟩ := h
    cases rop <;> rfl
  · rw [if_neg h, if_neg h]

/-! ### The points of a line drawn with COPY -/

/-- Points drawn with COPY set their visible pixels and no other. -/
theorem paint_copy_points_pixel (hfs : Memory.wf s.fsUnwritten s.fs) (r : Option Rect) (points : List (Int × Int))
    {x' y' : Nat} (hx' : x' < 8 * s.cfg.cols) :
    (paint (points.flatMap fun p => pointActs s.cfg r p.1 p.2 .copy) s).pixel x' y' = true ↔
      s.pixel x' y' = true ∨ visible s.cfg r x' y' = true ∧ ((x' : Int), (y' : Int)) ∈ points := by
  induction points generalizing s with
  | nil => simp [paint]
  | cons p points ih =>
    obtain ⟨x, y⟩ := p
    have hrest := ih (paint_canonical hfs (pointActs s.cfg r x y .copy)) (by rwa [paint_cfg])
    rw [paint_cfg, paint_pointActs_pixel hfs r x y .copy hx'] at hrest
    rw [List.flatMap_cons, paint_append, hrest, List.mem_cons, Prod.mk.injEq]
    by_cases hp : visible s.cfg r x y ∧ x' = x ∧ y' = y
    · obtain ⟨hv, rfl, rfl⟩ := hp
      simp [pointFn, BitFn.onBit, hv]
    · have hnew : ¬ (visible s.cfg r x' y' = true ∧ (x' : Int) = x ∧ (y' : Int) = y) := by
        rintro ⟨hv, rfl, rfl⟩
        exact hp ⟨hv, rfl, rfl⟩
      rw [if_neg hp, and_or_left, or_iff_right hnew]

/-! ### XOR drawn twice -/

/-- The action toggles the bits of its mask. -/
def WriteAction.toggles (w : WriteAction) : Prop := ∃ a m, w = .bit a m .tgl

/-- Toggling actions leave every byte exclusive-ored with a mask of their own, whatever the Frame Store held. -/
theorem paint_toggles {acts : List WriteAction} (h : ∀ w ∈ acts, w.toggles) :
    ∃ t : Nat → Byte, ∀ s : State, Memory.wf s.fsUnwritten s.fs → ∀ a, (paint acts s).fsByte a = s.fsByte a ^^^ t a := by
  induction acts with
  | nil => exact ⟨fun _ => 0, fun s _ a => by simp [paint]⟩
  | cons w acts ih =>
    obtain ⟨b, m, rfl⟩ := h w List.mem_cons_self
    obtain ⟨t, ht⟩ := ih fun w hw => h w (List.mem_cons_of_mem _ hw)
    refine ⟨fun a => (if a = b then m else 0) ^^^ t a, fun s hfs a => ?_⟩
    rw [paint_cons, ht _ (fsPut_wf hfs _ _), fsByte_after_action hfs, ← BitVec.xor_assoc]
    by_cases ha : a = b <;> simp [WriteAction.address, WriteAction.apply, BitFn.apply, ha]

theorem paint_twice_of_toggles {acts : List WriteAction} (h : ∀ w ∈ acts, w.toggles)
    (hfs : Memory.wf s.fsUnwritten s.fs) : paint (acts ++ acts) s = s := by
  obtain ⟨t, ht⟩ := paint_toggles h
  refine paint_eq_self hfs fun a => ?_
  rw [paint_append, ht _ (paint_canonical hfs acts), ht s hfs, BitVec.xor_assoc, BitVec.xor_self, BitVec.xor_zero]

theorem pointActs_xor_toggles {c : Cfg} {r : Option Rect} {x y : Int} : ∀ w ∈ pointActs c r x y .xor, w.toggles := by
  intro w hw
  rw [pointActs_eq] at hw
  split at hw
  · exact ⟨_, _, List.mem_singleton.1 hw⟩
  · simp at hw

theorem lineActs_xor_toggles {c : Cfg} {r : Option Rect} {x0 y0 x1 y1 : Int} :
    ∀ w ∈ lineActs c r x0 y0 x1 y1 .xor, w.toggles := by
  intro w hw
  obtain ⟨p, -, hp⟩ := List.mem_flatMap.1 hw
  exact pointActs_xor_toggles w hp

theorem rectActs_xor_toggles {c : Cfg} {x0 y0 x1 y1 : Int} : ∀ w ∈ rectActs c x0 y0 x1 y1 .xor, w.toggles := by
  intro w hw
  simp only [rectActs, List.mem_append] at hw
  obtain ((hw | hw) | hw) | hw := hw <;> exact lineActs_xor_toggles w hw

/-- Settles O45: the masks of the two drawings cancel. -/
theorem xorTwiceRestores : Obligations.XorTwiceRestores := fun _ hinv =>
  ⟨fun _ _ _ => paint_twice_of_toggles pointActs_xor_toggles hinv.fsCanonical,
    fun _ _ _ _ _ => paint_twice_of_toggles lineActs_xor_toggles hinv.fsCanonical,
    fun _ _ _ _ => paint_twice_of_toggles rectActs_xor_toggles hinv.fsCanonical⟩

end Sys2Proof.Machine
end

section
/-! The points of a line: the Bresenham walk of R183 in closed form, and the horizontal line (R184, R187). -/
namespace Sys2Proof.Machine

/-! ### The walk -/

/-- The minor steps taken before point `k` of a line with `major` and `minor` steps in all: the exact minor coordinate
rounded to the nearest, halves up. -/
def minorSteps (major minor k : Nat) : Nat := (2 * minor * k + major) / (2 * major)

theorem minorSteps_eq_iff {major : Nat} (hmajor : 0 < major) {minor k n : Nat} :
    minorSteps major minor k = n ↔
      n * (2 * major) ≤ 2 * minor * k + major ∧ 2 * minor * k + major < (n + 1) * (2 * major) := by
  have hpos : 0 < 2 * major := by omega
  rw [minorSteps, ← Nat.le_div_iff_mul_le hpos, ← Nat.div_lt_iff_lt_mul hpos]
  omega

theorem minorSteps_eq_zero {major minor k : Nat} (h : minor * k = 0) : minorSteps major minor k = 0 := by
  rw [minorSteps, Nat.mul_assoc, h, Nat.mul_zero, Nat.zero_add]
  exact Nat.div_eq_zero_iff.2 (by omega)

theorem minorSteps_zero (major minor : Nat) : minorSteps major minor 0 = 0 := minorSteps_eq_zero (Nat.mul_zero _)

/-- All minor steps have been taken at the last point. -/
theorem minorSteps_major {major minor : Nat} (hle : minor ≤ major) : minorSteps major minor major = minor := by
  obtain rfl | hpos := Nat.eq_zero_or_pos major
  · rw [Nat.le_zero.1 hle]
    rfl
  · rw [minorSteps_eq_iff hpos]
    constructor <;> linarith

theorem minorSteps_mono (major minor : Nat) : Monotone (minorSteps major minor) :=
  fun _ _ h => Nat.div_le_div_right (Nat.add_le_add_right (Nat.mul_le_mul_left _ h) _)

/-- The error `e` of R183 at point `k`. -/
def walkError (major minor k : Nat) : Int := 2 * minor * (k + 1) - major - 2 * major * minorSteps major minor k

/-- The test `e >= 0` says whether the minor coordinate of the next point is one further. -/
theorem minorSteps_succ {major minor : Nat} (hmajor : 0 < major) (hle : minor ≤ major) (k : Nat) :
    minorSteps major minor (k + 1) = minorSteps major minor k + if 0 ≤ walkError major minor k then 1 else 0 := by
  obtain ⟨hlow, hhigh⟩ := (minorSteps_eq_iff hmajor (minor := minor) (k := k)).1 rfl
  rw [minorSteps_eq_iff hmajor]
  split
  all_goals
    rename_i he
    unfold walkError at he
    zify at hlow hhigh hle ⊢
    constructor <;> linarith

theorem walkError_succ {major minor : Nat} (hmajor : 0 < major) (hle : minor ≤ major) (k : Nat) :
    walkError major minor (k + 1) =
      walkError major minor k + if 0 ≤ walkError major minor k then 2 * ((minor : Int) - major) else 2 * minor := by
  rw [walkError, minorSteps_succ hmajor hle]
  split <;> rw [walkError] <;> push_cast <;> ring

/-- The walk from point `k` on. -/
theorem lineWalk_eq (du dv u v : Int) {major minor : Nat} (hle : minor ≤ major) (n k : Nat) (hn : n ≤ major) :
    lineWalk du dv (2 * ((minor : Int) - major)) (2 * minor) n (u + du * k) (v + dv * minorSteps major minor k)
        (walkError major minor k) =
      (List.range' k (n + 1)).map fun i : Nat => (u + du * i, v + dv * minorSteps major minor i) := by
  induction n generalizing k with
  | zero => rfl
  | succ n ih =>
    have hmajor : 0 < major := by omega
    have hnext := ih (k + 1) (by omega)
    rw [walkError_succ hmajor hle, minorSteps_succ hmajor hle] at hnext
    rw [List.range'_succ, List.map_cons, ← hnext, lineWalk]
    split <;> push_cast <;> ring_nf

/-- The whole walk: `major` steps from its start. -/
theorem lineWalk_from_start (du dv u v : Int) {major minor : Nat} (hle : minor ≤ major) :
    lineWalk du dv (2 * ((minor : Int) - major)) (2 * minor) major u v (2 * minor - major) =
      (List.range (major + 1)).map fun k : Nat => (u + du * k, v + dv * minorSteps major minor k) := by
  have hwalk := lineWalk_eq du dv u v hle major 0 le_rfl
  simpa [walkError, minorSteps_zero, List.range_eq_range'] using hwalk

/-! ### The points -/

/-- Point `k` of a line (R183), x-major when `dx > dy`. -/
def linePoint (x0 y0 x1 y1 : Int) (k : Nat) : Int × Int :=
  if (y1 - y0).natAbs < (x1 - x0).natAbs then
    (x0 + lineStep x0 x1 * k, y0 + lineStep y0 y1 * minorSteps (x1 - x0).natAbs (y1 - y0).natAbs k)
  else (x0 + lineStep x0 x1 * minorSteps (y1 - y0).natAbs (x1 - x0).natAbs k, y0 + lineStep y0 y1 * k)

theorem absInt_eq_natAbs (v : Int) : absInt v = v.natAbs := by
  unfold absInt
  split <;> omega

theorem linePoints_eq_map (x0 y0 x1 y1 : Int) :
    linePoints x0 y0 x1 y1 =
      (List.range (max (x1 - x0).natAbs (y1 - y0).natAbs + 1)).map (linePoint x0 y0 x1 y1) := by
  simp only [linePoints, absInt_eq_natAbs, Int.toNat_natCast, Nat.cast_lt]
  by_cases h : (y1 - y0).natAbs < (x1 - x0).natAbs
  · rw [if_pos h, lineWalk_from_start _ _ _ _ h.le, max_eq_left h.le]
    exact List.map_congr_left fun k _ => (if_pos h).symm
  · rw [if_neg h, lineWalk_from_start _ _ _ _ (not_lt.1 h), max_eq_right (not_lt.1 h), List.map_map]
    exact List.map_congr_left fun k _ => (if_neg h).symm

theorem length_linePoints (x0 y0 x1 y1 : Int) :
    (linePoints x0 y0 x1 y1).length = max (x1 - x0).natAbs (y1 - y0).natAbs + 1 := by
  rw [linePoints_eq_map, List.length_map, List.length_range]

theorem linePoint_zero (x0 y0 x1 y1 : Int) : linePoint x0 y0 x1 y1 0 = (x0, y0) := by
  simp [linePoint, minorSteps_zero]

/-- As many unit steps as the ends are apart lead from one to the other. -/
theorem add_lineStep_mul_natAbs (p q : Int) : p + lineStep p q * (q - p).natAbs = q := by
  unfold lineStep
  split <;> omega

theorem linePoint_last (x0 y0 x1 y1 : Int) :
    linePoint x0 y0 x1 y1 (max (x1 - x0).natAbs (y1 - y0).natAbs) = (x1, y1) := by
  unfold linePoint
  split
  · rename_i h
    rw [max_eq_left h.le, minorSteps_major h.le, add_lineStep_mul_natAbs, add_lineStep_mul_natAbs]
  · rename_i h
    rw [max_eq_right (not_lt.1 h), minorSteps_major (not_lt.1 h), add_lineStep_mul_natAbs, add_lineStep_mul_natAbs]

/-- No more unit steps than the ends are apart stay between them. -/
theorem add_lineStep_mul_between {p q : Int} {n : Nat} (h : n ≤ (q - p).natAbs) :
    min p q ≤ p + lineStep p q * n ∧ p + lineStep p q * n ≤ max p q := by
  unfold lineStep
  split <;> omega

theorem linePoint_between {x0 y0 x1 y1 : Int} {k : Nat} (hk : k ≤ max (x1 - x0).natAbs (y1 - y0).natAbs) :
    (min x0 x1 ≤ (linePoint x0 y0 x1 y1 k).1 ∧ (linePoint x0 y0 x1 y1 k).1 ≤ max x0 x1) ∧
      min y0 y1 ≤ (linePoint x0 y0 x1 y1 k).2 ∧ (linePoint x0 y0 x1 y1 k).2 ≤ max y0 y1 := by
  have hminor : ∀ {major minor : Nat}, minor ≤ major → k ≤ major → minorSteps major minor k ≤ minor := fun hle hk =>
    (minorSteps_mono _ _ hk).trans_eq (minorSteps_major hle)
  unfold linePoint
  split
  · rename_i h
    rw [max_eq_left h.le] at hk
    exact ⟨add_lineStep_mul_between hk, add_lineStep_mul_between (hminor h.le hk)⟩
  · rename_i h
    rw [max_eq_right (not_lt.1 h)] at hk
    exact ⟨add_lineStep_mul_between (hminor (not_lt.1 h) hk), add_lineStep_mul_between hk⟩

theorem mem_linePoints_between {x0 y0 x1 y1 : Int} {p : Int × Int} (hp : p ∈ linePoints x0 y0 x1 y1) :
    (min x0 x1 ≤ p.1 ∧ p.1 ≤ max x0 x1) ∧ min y0 y1 ≤ p.2 ∧ p.2 ≤ max y0 y1 := by
  rw [linePoints_eq_map] at hp
  obtain ⟨k, hk, rfl⟩ := List.mem_map.1 hp
  exact linePoint_between (Nat.lt_succ_iff.1 (List.mem_range.1 hk))

/-- Settles O41: the closed form of every point, and what it gives for the first point, the last and those between. -/
theorem linePointsJoinTheEnds : Obligations.LinePointsJoinTheEnds := by
  intro x0 y0 x1 y1
  refine ⟨linePoints_eq_map x0 y0 x1 y1, length_linePoints x0 y0 x1 y1, ?_, ?_, fun p hp => ?_⟩
  · rw [linePoints_eq_map, List.range_succ_eq_map, List.map_cons, List.head?_cons, linePoint_zero]
  · rw [linePoints_eq_map, List.range_succ, List.map_append, List.map_singleton, List.getLast?_concat, linePoint_last]
  · obtain ⟨⟨hx, hx'⟩, hy⟩ := mem_linePoints_between hp
    exact ⟨hx, hx', hy⟩

/-! ### The horizontal line -/

variable {s : State}

/-- A line all of whose points are visible has one write action a point (R182). -/
theorem length_lineActs {c : Cfg} {r : Option Rect} {x0 y0 x1 y1 : Int}
    (h : ∀ p ∈ linePoints x0 y0 x1 y1, visible c r p.1 p.2 = true) (rop : RasterOp) :
    (lineActs c r x0 y0 x1 y1 rop).length = (linePoints x0 y0 x1 y1).length := by
  have hone : ∀ p ∈ linePoints x0 y0 x1 y1, (pointActs c r p.1 p.2 rop).length = 1 := fun p hp => by
    rw [pointActs_eq, if_pos (h p hp), List.length_singleton]
  rw [lineActs, List.length_flatMap, List.map_congr_left hone]
  simp

/-- Every point of a horizontal line's row between its ends is one of its points: the one as many steps on as it is away
from the start. -/
theorem linePoint_horizontal {x0 x1 x y : Int} (hmin : min x0 x1 ≤ x) (hmax : x ≤ max x0 x1) :
    linePoint x0 y x1 y (x - x0).natAbs = (x, y) := by
  have hdy : (y - y).natAbs = 0 := by omega
  have hx : x0 + lineStep x0 x1 * (x - x0).natAbs = x := by
    unfold lineStep
    split <;> omega
  rw [linePoint, hdy]
  split
  · rw [hx, minorSteps_eq_zero (Nat.zero_mul _), Nat.cast_zero, mul_zero, add_zero]
  · have hstart : x = x0 := by omega
    simp [hstart, minorSteps_zero]

/-- The points of a horizontal line are those of its row between its ends. -/
theorem mem_linePoints_horizontal {x0 x1 x y y' : Int} :
    (x, y') ∈ linePoints x0 y x1 y ↔ y' = y ∧ min x0 x1 ≤ x ∧ x ≤ max x0 x1 := by
  constructor
  · intro hp
    obtain ⟨hx, hy⟩ := mem_linePoints_between hp
    exact ⟨by omega, hx⟩
  · rintro ⟨rfl, hmin, hmax⟩
    rw [linePoints_eq_map, ← linePoint_horizontal hmin hmax]
    exact List.mem_map_of_mem (List.mem_range.2 (by omega))

/-- Settles O42: every point is visible, and the points are the pixels between the ends. -/
theorem horizontalLineSetsItsPixels : Obligations.HorizontalLineSetsItsPixels := by
  intro s x0 x1 y hinv hx0 hx1 hy
  have hvisible : ∀ p ∈ linePoints x0 y x1 y, visible s.cfg none p.1 p.2 = true := by
    rintro ⟨x, y'⟩ hp
    obtain ⟨hpy, hmin, hmax⟩ := mem_linePoints_horizontal.1 hp
    exact visible_iff.2 ⟨inside_iff.2 (by omega), rfl⟩
  refine ⟨?_, fun x' y' hx' _ => ?_⟩
  · rw [length_lineActs hvisible, length_linePoints]
    omega
  · rw [Bool.eq_iff_iff, lineActs, paint_copy_points_pixel hinv.fsCanonical none _ hx', Bool.or_eq_true, decide_eq_true_eq,
      and_iff_right_of_imp (hvisible (x', y')), mem_linePoints_horizontal]
    refine or_congr_right ?_
    omega

end Sys2Proof.Machine
end

section
/-! The blit core and the text core: the rows a bitmap reaches, the raster ops, the cells a text draws (R200, R201,
R204). -/
namespace Sys2Proof.Machine

/-! ### The blit core -/

/-- From bitmap row `r` on, the rows drawn are those above the bottom edge (R200). -/
theorem bltRows_eq (c : Cfg) (x y w : Nat) (src : Nat → Nat → Bool) (rop : RasterOp) (n r : Nat) :
    bltRows c x y w src rop n r =
      (List.range (min n (c.pixelsY - (y + r)))).flatMap fun i => bltRow c x (y + (r + i)) w (src (r + i)) rop := by
  induction n generalizing r with
  | zero => simp [bltRows]
  | succ n ih =>
    rw [bltRows]
    split
    case isTrue hbelow => simp [Nat.sub_eq_zero_of_le hbelow]
    case isFalse habove =>
      have hcount : min (n + 1) (c.pixelsY - (y + r)) = min n (c.pixelsY - (y + (r + 1))) + 1 := by omega
      have hnext : ∀ i, r + 1 + i = r + (i + 1) := fun i => by omega
      simp only [ih, hcount, List.range_succ_eq_map, List.flatMap_cons, List.flatMap_map, Nat.add_zero, hnext]

/-- The blit core draws a bitmap that is not empty and whose origin is not outside, row by row (R200). -/
theorem bltActs_eq (c : Cfg) (x y w h : Int) (src : Nat → Nat → Bool) (rop : RasterOp) :
    bltActs c x y w h src rop =
      if 0 < w ∧ 0 < h ∧ 0 ≤ x ∧ 0 ≤ y ∧ x < c.pixelsX then bltRows c x.toNat y.toNat w.toNat src rop h.toNat 0
      else [] := by
  rw [bltActs]
  split
  case isTrue hempty => rw [if_neg (by omega)]
  case isFalse hsome =>
    split
    case isTrue houtside => rw [if_neg (by omega)]
    case isFalse hinside => rw [if_pos (by omega)]

/-- Settles O47: the recursion over the rows in closed form; the row is as `bltRow` draws it. -/
theorem blitWritesTheClippedRows : Obligations.BlitWritesTheClippedRows := by
  intro c x y w h src rop
  rw [bltActs_eq, bltRows_eq]
  simp only [Nat.zero_add, Nat.add_zero]
  rfl

/-- What the bit function of a raster op and a bitmap bit makes of the destination bit (R201). -/
theorem bltFn_onBit (rop : RasterOp) (bit b : Bool) :
    (bltFn rop bit).onBit b =
      match rop with
      | .copy => bit
      | .xor => xor b bit
      | .and => b && bit
      | .or => b || bit := by
  cases rop <;> cases bit <;> cases b <;> rfl

/-- Settles O48: the table is `bltFn` evaluated; on the bits of the mask its function is that of `bltFn_onBit`. -/
theorem blitRasterOps : Obligations.BlitRasterOps := by
  refine ⟨by decide, fun rop bit m v i hi => ?_⟩
  rw [BitFn.getLsbD_apply _ _ _ hi]
  exact if_congr Iff.rfl (bltFn_onBit rop bit _) rfl

/-! ### The text core -/

section
variable {c : Cfg} {y gh xlim xc : Int} {rop : RasterOp} {ch : Byte} {rest : List Byte}

/-- A character has no glyph when its code is below `FONT_OFFSET` or the glyph number is `FONT_COUNT` or more (R204). -/
theorem printable_eq_false_iff :
    printable c ch = false ↔ ch.toNat < c.fontOffset ∨ c.fontCount ≤ ch.toNat - c.fontOffset := by
  rw [printable, decide_eq_false_iff_not]
  omega

theorem textRun_cons_of_unprintable (h : printable c ch = false) :
    textRun c y gh xlim rop (ch :: rest) xc = textRun c y gh xlim rop rest xc := by
  rw [textRun, if_pos (printable_eq_false_iff.1 h)]

theorem textRun_cons_of_printable (h : printable c ch = true) :
    textRun c y gh xlim rop (ch :: rest) xc =
      if xlim < xc + 8 then []
      else bltActs c xc y 8 gh (fontBit c (ch.toNat - c.fontOffset)) rop ++ textRun c y gh xlim rop rest (xc + 8) := by
  rw [textRun, if_neg (mt printable_eq_false_iff.2 (by simp [h]))]

end

/-- Settles O51, by induction on the text: a character without a glyph leaves the cursor where it is. -/
theorem textSkipsUnprintable : Obligations.TextSkipsUnprintable := by
  intro c y gh xlim rop chars
  induction chars with
  | nil => exact fun _ => rfl
  | cons ch rest ih =>
    intro xc
    cases h : printable c ch
    case false => rw [textRun_cons_of_unprintable h, List.filter_cons_of_neg (by simp [h]), ih]
    case true => rw [textRun_cons_of_printable h, List.filter_cons_of_pos h, textRun_cons_of_printable h, ih]

/-- Settles O52, by induction on the text: a character that fits leaves one cell less of the room for the rest. -/
theorem textDrawsTheCellsThatFit : Obligations.TextDrawsTheCellsThatFit := by
  intro c y gh xlim rop chars
  induction chars with
  | nil => exact fun _ _ => rfl
  | cons ch rest ih =>
    intro xc hchars
    rw [textRun_cons_of_printable (hchars ch List.mem_cons_self)]
    split
    case isTrue hfull =>
      have hnone : ((xlim - xc) / 8).toNat = 0 := by omega
      simp [hnone]
    case isFalse hfits =>
      have hcount : min (ch :: rest).length ((xlim - xc) / 8).toNat =
          min rest.length ((xlim - (xc + 8)) / 8).toNat + 1 := by
        rw [List.length_cons]
        omega
      have hnext : ∀ i : Nat, xc + 8 + 8 * (i : Int) = xc + 8 * ((i + 1 : Nat) : Int) := fun i => by omega
      rw [ih _ fun ch' h => hchars ch' (List.mem_cons_of_mem _ h), hcount, List.range_succ_eq_map, List.flatMap_cons,
        List.flatMap_map]
      simp only [List.getD_cons_zero, List.getD_cons_succ, Nat.cast_zero, mul_zero, add_zero, hnext]
      rfl

end Sys2Proof.Machine
end

section
/-! What a launch of BITBLT, TEXT or TEXTA leaves while `BUSY = 0`, and the text operand (R202, R203, R205, R206). -/
namespace Sys2Proof.Machine

/-! ### BITBLT -/

/-- Settles O46: the write list is the blit core over the bits `smBit` reads. -/
theorem bitbltLaunches : Obligations.BitbltLaunches :=
  fun _ _ hb => exec_drawing_of_idle rfl hb

/-! ### The text operand -/

@[simp] theorem length_textOperand (s : State) : (textOperand s).length = s.len.toNat := by
  simp [textOperand, u16]

theorem wrap16_natCast (n : Nat) : wrap16 n = n % 65536 := by
  unfold wrap16
  omega

/-- The bytes of the text, at addresses that wrap (R63, R206). -/
theorem textOperand_eq (s : State) :
    textOperand s =
      (List.range s.len.toNat).map fun (i : Nat) => Memory.read smUnwritten s.sm ((s.ptr.toNat + i) % 65536) := by
  simp only [textOperand, smRead, u16, ← Nat.cast_add, wrap16_natCast]

/-! ### TEXT and TEXTA -/

/-- Settles O49: null rectangle or `RC[RA]`, each with LEFT and RIGHT; the text has `LEN` characters. -/
theorem textLaunches : Obligations.TextLaunches := by
  intro f s hb
  rw [exec_drawing_of_idle rfl hb]
  simp only [commandWrites, textActs, rectOperand, length_textOperand]
  cases f.nr <;> cases f.al <;> rfl

/-- Settles O50: the two alignments, and the text operand. -/
theorem textaLaunches : Obligations.TextaLaunches := by
  refine ⟨fun f s hb => ?_, textOperand_eq⟩
  rw [exec_drawing_of_idle rfl hb]
  simp only [commandWrites, textaActs, length_textOperand]
  cases f.al <;> rfl

end Sys2Proof.Machine
end

section
/-! The commands that act inside the launch step: COPYRECT, GETCRECT, INIT (R171, R224 to R226). -/
namespace Sys2Proof.Machine

variable {s : State}

/-- With `BUSY = 0` an immediate command writes `CMD` and takes its effect (R161). -/
theorem exec_immediate_of_idle {i : Instr} {e : State → State} (hi : immediateEffect i = some e) (hb : s.busy = false) :
    exec i s = .next (e { s with cmd := encode i }) := by
  rw [exec_eq, hi]
  exact launchImmediate_next.2 (.inr ⟨hb, rfl⟩)

/-! ### Rectangle registers -/

/-- A read of one Rectangle register after one was replaced (R28). -/
theorem RectFile.get_set (r : RectFile) (i j : RectIx) (v : RectReg) :
    (r.set i v).get j = if j = i then v else r.get j := by
  cases i <;> cases j <;> rfl

/-- Settles O56: the Rectangle file after one register was replaced. -/
theorem copyrectCopies : Obligations.CopyrectCopies :=
  fun f s hb => ⟨_, exec_immediate_of_idle rfl hb, rfl, fun i => RectFile.get_set s.rc f.ra i _⟩

/-! ### The Rectangle of the whole display -/

/-- The value GETCRECT loads (R225). -/
def displayRect (c : Cfg) : Rect := { x := 0, y := 0, w := c.pixelsX, h := c.pixelsY }

/-- The bounds of R5 and R7 that make the size of the display a Rectangle value. -/
theorem Cfg.display_of_wf {c : Cfg} (h : c.wf = true) : c.pixelsX ≤ 32767 ∧ 0 < c.pixelsY ∧ c.pixelsY ≤ 32767 := by
  simp only [Cfg.wf, Cfg.geometryOk, Bool.and_eq_true, decide_eq_true_eq] at h
  obtain ⟨⟨⟨⟨⟨⟨-, hvl⟩, -⟩, hx⟩, hy⟩, -⟩, -⟩ := h
  exact ⟨hx, hvl, hy⟩

/-- A 16-bit register holds every number below 32768 as itself (R13). -/
theorem s16_ofNat {n : Nat} (h : n ≤ 32767) : s16 (BitVec.ofNat 16 n) = n := by
  rw [s16, BitVec.toInt_ofNat']
  exact Int.bmod_eq_of_le (by omega) (by omega)

theorem clientRect_value {c : Cfg} (h : c.wf = true) : (clientRect c).value = displayRect c := by
  obtain ⟨hx, -, hy⟩ := Cfg.display_of_wf h
  have hzero : s16 0 = 0 := rfl
  rw [RectReg.value, clientRect, s16_ofNat hx, s16_ofNat hy, hzero, displayRect]

theorem inrect_some_iff {r : Rect} {x y : Int} :
    inrect (some r) x y = true ↔ r.x ≤ x ∧ x < r.x + r.w ∧ r.y ≤ y ∧ y < r.y + r.h := by
  simp [inrect, and_assoc]

/-- The pixels inside the display are all in its Rectangle. -/
theorem inrect_displayRect {c : Cfg} {x y : Int} (h : inside c x y = true) :
    inrect (some (displayRect c)) x y = true := by
  simpa only [inrect_some_iff, displayRect, zero_add] using inside_iff.1 h

theorem pointActs_displayRect (c : Cfg) (x y : Int) (rop : RasterOp) :
    pointActs c (some (displayRect c)) x y rop = pointActs c none x y rop := by
  have hvisible : visible c (some (displayRect c)) x y = visible c none x y := by
    cases hin : inside c x y
    case false => simp [visible, hin]
    case true => rw [visible, inrect_displayRect hin, visible, inrect]
  rw [pointActs_eq, hvisible, pointActs_eq]

theorem lineActs_displayRect (c : Cfg) (x0 y0 x1 y1 : Int) (rop : RasterOp) :
    lineActs c (some (displayRect c)) x0 y0 x1 y1 rop = lineActs c none x0 y0 x1 y1 rop := by
  simp only [lineActs, pointActs_displayRect]

/-- Bitmaps at the top row that differ only in rows at or below the bottom edge draw the same (R200). -/
theorem bltActs_top_congr {c : Cfg} {x w h h' : Int} {src : Nat → Nat → Bool} {rop : RasterOp} (hpos : 0 < h ↔ 0 < h')
    (hrows : min h.toNat c.pixelsY = min h'.toNat c.pixelsY) :
    bltActs c x 0 w h src rop = bltActs c x 0 w h' src rop := by
  simp only [bltActs_eq, bltRows_eq, hpos, Int.toNat_zero, Nat.add_zero, Nat.sub_zero, hrows]

/-- Glyph rows cut at the height of the display are those the bottom edge cuts (R200, R204). -/
theorem textRun_displayHeight {c : Cfg} (hy : 0 < c.pixelsY) (xlim : Int) (rop : RasterOp) (chars : List Byte)
    (xc : Int) :
    textRun c 0 (min 8 (max 0 c.pixelsY)) xlim rop chars xc = textRun c 0 8 xlim rop chars xc := by
  induction chars generalizing xc with
  | nil => rfl
  | cons ch rest ih =>
    have hcell : ∀ src, bltActs c xc 0 8 (min 8 (max 0 c.pixelsY)) src rop = bltActs c xc 0 8 8 src rop :=
      fun src => bltActs_top_congr (by omega) (by omega)
    simp only [textRun, ih, hcell]

theorem textActs_displayRect {c : Cfg} (hy : 0 < c.pixelsY) (chars : List Byte) (al : Align) (rop : RasterOp) :
    textActs c (some (displayRect c)) chars al rop = textActs c none chars al rop := by
  have hlimit : textLimit c (displayRect c) al = c.pixelsX := by
    cases al with
    | left => simp [textLimit, displayRect]
    | right => rfl
  simp only [textActs, hlimit]
  exact textRun_displayHeight hy _ rop chars _

/-- Settles O57: the value the register holds is that of the display, and each write list for that value. -/
theorem getcrectLoadsTheDisplay : Obligations.GetcrectLoadsTheDisplay := by
  intro f s hwf hb
  have hget : ∀ i, (s.rc.set f.ra (clientRect s.cfg)).get i = if i = f.ra then clientRect s.cfg else s.rc.get i :=
    fun i => RectFile.get_set s.rc f.ra i _
  have hvalue : ((s.rc.set f.ra (clientRect s.cfg)).get f.ra).value = displayRect s.cfg := by
    rw [hget, if_pos rfl, clientRect_value hwf]
  refine ⟨_, exec_immediate_of_idle rfl hb, rfl, fun i hi => (hget i).trans (if_neg hi), hvalue, ?_⟩
  simp only [hvalue]
  exact ⟨pointActs_displayRect s.cfg, lineActs_displayRect s.cfg, fun _ => rfl,
    textActs_displayRect (Cfg.display_of_wf hwf).2.1⟩

/-! ### INIT -/

theorem periodError_iff {c : Cfg} : periodError c = true ↔ c.hTotal = 0 ∨ c.vTotal = 0 := by
  simp [periodError]

/-- After INIT every Frame Store byte reads 0x00 (R226). -/
@[simp] theorem videoInit_fsByte (s : State) (a : Nat) : (videoInit s).fsByte a = 0x00 := fsZero_fsByte s a

/-- Settles O58: `videoInit` after the write to `CMD`, with the period check either way. -/
theorem initRestartsTheBlock : Obligations.InitRestartsTheBlock := by
  refine ⟨fun f s hb => exec_of_busy _ hb, fun f s hb => ?_⟩
  refine ⟨_, exec_immediate_of_idle rfl hb, rfl, videoInit_fsByte _, ?_, ?_⟩
  · intro hzero
    have herror : periodError s.cfg = true := periodError_iff.2 hzero
    simp only [videoInit_result, videoInit_run, herror, if_true, Bool.not_true, and_self]
  · rintro ⟨hh, hv⟩
    have hok : periodError s.cfg = false := Bool.eq_false_iff.2 fun herror => (periodError_iff.1 herror).elim hh hv
    simp only [videoInit_result, videoInit_run, hok, Bool.false_eq_true, if_false, Bool.not_false, and_self]

end Sys2Proof.Machine
end

section
/-! The commands made of `BYTE` actions: the row commands and CLEAR (R220 to R223, R227). -/
namespace Sys2Proof.Machine

variable {s : State}

/-! ### Painting `BYTE` actions -/

/-- One `BYTE` function at addresses that do not repeat acts once on the byte at each of them and on no other. -/
theorem paint_bytes_fsByte (hfs : Memory.wf s.fsUnwritten s.fs) {addresses : List Nat} (hnodup : addresses.Nodup)
    (g : ByteFn) (a : Nat) :
    (paint (addresses.map fun b => .byte b g) s).fsByte a =
      if a ∈ addresses then g.apply (s.fsByte a) else s.fsByte a := by
  induction addresses generalizing s with
  | nil => rfl
  | cons b rest ih =>
    obtain ⟨hb, hrest⟩ := List.nodup_cons.1 hnodup
    rw [List.map_cons, paint_cons, ih (fsPut_wf hfs _ _) hrest, fsByte_after_action hfs]
    simp only [WriteAction.address, WriteAction.apply, List.mem_cons]
    by_cases hab : a = b
    · subst hab
      simp [hb]
    · simp [hab]

/-! ### CLEAR -/

/-- Settles O59: every address of the store is in the list, and once. -/
theorem clearZeroesEveryByte : Obligations.ClearZeroesEveryByte := by
  refine ⟨fun f s hb => exec_drawing_of_idle rfl hb, fun s a hinv ha => ?_⟩
  exact (paint_bytes_fsByte hinv.fsCanonical List.nodup_range .zero a).trans (if_pos (List.mem_range.2 ha))

/-! ### Row bands -/

/-- Settles O54: the band with its rows written out. -/
theorem rowCommandsLaunch : Obligations.RowCommandsLaunch :=
  fun _ _ hb => ⟨exec_drawing_of_idle rfl hb, exec_drawing_of_idle rfl hb, exec_drawing_of_idle rfl hb⟩

/-- The addresses of the visible bytes of display row `r`, left to right (R61). -/
def visibleAddresses (c : Cfg) (r : Nat) : List Nat := (List.range c.hb).map fun k => r * c.cols + k

theorem nodup_visibleAddresses (c : Cfg) (r : Nat) : (visibleAddresses c r).Nodup :=
  List.nodup_range.map (add_right_injective _)

/-- Column `k` of row `r` is a visible byte of row `r'` exactly when the rows are the same and it is not padding. -/
theorem mem_visibleAddresses {c : Cfg} {r r' k : Nat} (hk : k < c.cols) :
    r * c.cols + k ∈ visibleAddresses c r' ↔ k < c.hb ∧ r = r' := by
  simp only [visibleAddresses, List.mem_map, List.mem_range]
  constructor
  · rintro ⟨k', hk', h⟩
    have hcols : k' < c.cols := Nat.lt_of_lt_of_le hk' (Nat.le_add_right _ _)
    have hpix : pixAddress c (8 * k) r = pixAddress c (8 * k') r' := by
      simp only [pixAddress, Nat.mul_div_cancel_left _ (show 0 < 8 by decide), h]
    obtain ⟨hr, hcol⟩ := (pixAddress_eq_iff (by omega) (by omega)).1 hpix
    exact ⟨by omega, hr⟩
  · rintro ⟨hvisible, rfl⟩
    exact ⟨k, hvisible, rfl⟩

theorem rowActs_eq (c : Cfg) (r : Int) (g : ByteFn) :
    rowActs c r g =
      if 0 ≤ r ∧ r < c.pixelsY then (visibleAddresses c r.toNat).map fun a => .byte a g else [] := by
  simp only [rowActs, visibleAddresses, List.map_map, Function.comp_def]

/-- One row of a band acts on its visible bytes and on nothing when it is outside the display. -/
theorem paint_rowActs_fsByte (hfs : Memory.wf s.fsUnwritten s.fs) (y : Int) (g : ByteFn) {r k : Nat} (hr : r < s.cfg.vl)
    (hk : k < s.cfg.cols) :
    (paint (rowActs s.cfg y g) s).fsByte (r * s.cfg.cols + k) =
      if k < s.cfg.hb ∧ (r : Int) = y then g.apply (s.fsByte (r * s.cfg.cols + k))
      else s.fsByte (r * s.cfg.cols + k) := by
  rw [rowActs_eq]
  split
  case isTrue hdisplay =>
    have hrow : r = y.toNat ↔ (r : Int) = y := by omega
    simp only [paint_bytes_fsByte hfs (nodup_visibleAddresses _ _), mem_visibleAddresses hk, hrow]
  case isFalse houtside =>
    have hother : ¬ (r : Int) = y := by
      unfold Cfg.pixelsY at houtside
      omega
    rw [if_neg (hother ·.2)]
    rfl

theorem rowsActs_succ (c : Cfg) (y : Int) (n : Nat) (g : ByteFn) :
    rowsActs c y (n + 1) g = rowsActs c y n g ++ rowActs c (y + n) g := by
  simp only [rowsActs, List.range_succ, List.flatMap_append, List.flatMap_singleton]

/-- A band acts once on each visible byte of its rows, by induction on the rows: the last one is not among those
above. -/
theorem paint_rowsActs_fsByte (hfs : Memory.wf s.fsUnwritten s.fs) (y : Int) (n : Nat) (g : ByteFn) {r k : Nat}
    (hr : r < s.cfg.vl) (hk : k < s.cfg.cols) :
    (paint (rowsActs s.cfg y n g) s).fsByte (r * s.cfg.cols + k) =
      if k < s.cfg.hb ∧ y ≤ r ∧ (r : Int) < y + n then g.apply (s.fsByte (r * s.cfg.cols + k))
      else s.fsByte (r * s.cfg.cols + k) := by
  induction n with
  | zero =>
    have hnone : ¬ (k < s.cfg.hb ∧ y ≤ r ∧ (r : Int) < y + (0 : Nat)) := by omega
    rw [if_neg hnone]
    rfl
  | succ n ih =>
    have hlast := paint_rowActs_fsByte (paint_canonical hfs (rowsActs s.cfg y n g)) (y + n) g
      (by rwa [paint_cfg]) (by rwa [paint_cfg])
    rw [paint_cfg] at hlast
    rw [rowsActs_succ, paint_append, hlast]
    by_cases hrow : (r : Int) = y + n
    · have hbefore := ih.trans (if_neg (by omega))
      have hband : k < s.cfg.hb ∧ (r : Int) = y + n ↔ k < s.cfg.hb ∧ y ≤ r ∧ (r : Int) < y + (n + 1 : Nat) := by omega
      rw [hbefore]
      exact if_congr hband rfl rfl
    · have hband : k < s.cfg.hb ∧ y ≤ r ∧ (r : Int) < y + n ↔ k < s.cfg.hb ∧ y ≤ r ∧ (r : Int) < y + (n + 1 : Nat) := by
        omega
      rw [if_neg (hrow ·.2), ih]
      exact if_congr hband rfl rfl

/-- Exclusive-or with all ones is the complement (R14). -/
theorem ByteFn.apply_inv (v : Byte) : ByteFn.inv.apply v = ~~~v := BitVec.xor_allOnes

/-- Settles O55: the function of the band on its visible bytes. -/
theorem rowBandChangesItsVisibleBytes : Obligations.RowBandChangesItsVisibleBytes := by
  intro s y n g r k hinv hr hk
  rw [paint_rowsActs_fsByte hinv.fsCanonical y n g hr hk]
  cases g with
  | zero => rfl
  | inv => rw [ByteFn.apply_inv]

end Sys2Proof.Machine
end

section
/-! The HOST's Source Memory while a command runs: what is in use, what is refused, what is performed (R274, log 8). -/
namespace Sys2Proof.Machine

variable {s : State} {a : Word} {v : Byte}

/-! ### Refused or performed -/

theorem smWrite_refused (huse : smInUse s a = true) (hv : v ≠ smRead s a.toNat) :
    smWrite s a v = .refused (.sourceMemoryInUse a.toNat) := if_pos ⟨huse, hv⟩

theorem smWrite_performed (h : smInUse s a = false ∨ v = smRead s a.toNat) :
    smWrite s a v = .next { s with sm := Memory.write smUnwritten s.sm a.toNat v } := by
  refine if_neg fun ⟨huse, hv⟩ => ?_
  obtain hfree | hsame := h
  · simp [hfree] at huse
  · exact hv hsame

/-! ### The bytes in use, by the running command -/

/-- A 16-bit address is the number it stands for modulo 65536 (R13). -/
theorem address_eq_ofNat_iff {n : Nat} : a = BitVec.ofNat 16 n ↔ a.toNat = n % 65536 := by
  rw [BitVec.toNat_eq, BitVec.toNat_ofNat]

/-- A running TEXT or TEXTA uses the `LEN` bytes of its text. -/
theorem smInUse_of_text {f : Fields} (hb : s.busy = true)
    (hcmd : decode s.cmd = .ok (.text f) ∨ decode s.cmd = .ok (.texta f)) :
    smInUse s a = true ↔ ∃ i, i < s.len.toNat ∧ a = BitVec.ofNat 16 (s.ptr.toNat + i) := by
  have htext : smInUse s a = textReads s.ptr.toNat s.len.toNat a.toNat := by
    obtain hcmd | hcmd := hcmd <;> rw [smInUse, hb, hcmd] <;> rfl
  simp only [htext, textReads_iff a.isLt s.len.isLt.le, address_eq_ofNat_iff]

/-- A running BITBLT uses the bytes of its bitmap that have a drawn bit. -/
theorem smInUse_of_bitblt {f : Fields} (hb : s.busy = true) (hcmd : decode s.cmd = .ok (.bitblt f)) :
    smInUse s a = true ↔
      ∃ r j, bltDraws s.cfg (s16 s.x0) (s16 s.y0) (s16 s.bw) (s16 s.bh) r j ∧
        a = BitVec.ofNat 16 (s.ptr.toNat + r * (stride (s16 s.bw)).toNat + j / 8) := by
  have hbitmap : smInUse s a =
      bitmapReads s.cfg (s16 s.x0) (s16 s.y0) (s16 s.bw) (s16 s.bh) s.ptr.toNat a.toNat := by
    rw [smInUse, hb, hcmd]
    rfl
  have hwidth : s16 s.bw < 65536 := lt_trans BitVec.toInt_lt (by decide)
  simp only [hbitmap, bitmapReads_iff a.isLt hwidth, address_eq_ofNat_iff]

/-- No other command uses the Source Memory (R63). -/
theorem smInUse_of_other
    (hcmd : ∀ f, decode s.cmd ≠ .ok (.text f) ∧ decode s.cmd ≠ .ok (.texta f) ∧ decode s.cmd ≠ .ok (.bitblt f)) :
    smInUse s a = false := by
  unfold smInUse
  split
  case h_1 f hbitblt =>
    obtain ⟨-, -, hne⟩ := hcmd f
    exact absurd hbitblt hne
  case h_2 f htext =>
    obtain ⟨hne, -, -⟩ := hcmd f
    exact absurd htext hne
  case h_3 f htexta =>
    obtain ⟨-, hne, -⟩ := hcmd f
    exact absurd htexta hne
  case h_4 => exact Bool.and_false _

/-- Settles O15: the bytes in use are those of the text or the drawn bitmap, and a write is refused exactly when it
changes one of them. -/
theorem sourceMemoryInUseIsRefused : Obligations.SourceMemoryInUseIsRefused := by
  refine ⟨fun s f a v hb hcmd => ⟨fun i hi ha hv => ?_, fun hout => ?_⟩,
    fun s f a v hb hcmd => ⟨fun r j hdrawn ha hv => ?_, fun hout => ?_⟩, fun s a v h => ?_⟩
  · exact smWrite_refused ((smInUse_of_text hb hcmd).2 ⟨i, hi, ha⟩) hv
  · refine smWrite_performed (.inl (Bool.eq_false_iff.2 fun huse => ?_))
    obtain ⟨i, hi, ha⟩ := (smInUse_of_text hb hcmd).1 huse
    exact hout i hi ha
  · exact smWrite_refused ((smInUse_of_bitblt hb hcmd).2 ⟨r, j, hdrawn, ha⟩) hv
  · refine smWrite_performed (.inl (Bool.eq_false_iff.2 fun huse => ?_))
    obtain ⟨r, j, hdrawn, ha⟩ := (smInUse_of_bitblt hb hcmd).1 huse
    exact hout r j hdrawn ha
  · obtain hsame | hidle | hother := h
    · exact smWrite_performed (.inr hsame)
    · exact smWrite_of_idle hidle a v
    · exact smWrite_performed (.inl (smInUse_of_other hother))

end Sys2Proof.Machine
end

section
/-! The invariant along a run from reset (R39). -/
namespace Sys2Proof.Machine

/-- R39 along any run: each of its steps keeps the invariant. -/
theorem Inv.run {n : Nat} {s t : State} (hinv : Inv s) (h : Host.Core.run core n s = .next t) : Inv t := by
  induction n generalizing s with
  | zero =>
    obtain rfl := Host.Outcome.next.inj h
    exact hinv
  | succ n ih =>
    obtain ⟨u, hstep, hrun⟩ := run_succ_next (M := core) h
    exact ih (stepKeepsInv s u hinv hstep) hrun

/-- The start of a run differs from the reset state in what is the HOST's and the schedule's alone. -/
theorem Inv.startState {c : Cfg} {sm : List Host.Cell} (hc : c.wf = true) (hsm : Memory.wf smUnwritten sm)
    (hrange : ∀ e ∈ sm, e.1 < 65536) (program : List HostAct) (schedule : List Agent) :
    Inv (startState c program schedule sm) :=
  { Inv.resetOf hc with smCanonical := hsm, smInRange := hrange }

/-- Settles O19: the invariant holds at the start and along the run, and the clauses of R39 are among its own. -/
theorem reachableStatesMeetRule39 : Obligations.ReachableStatesMeetRule39 := by
  intro c program schedule sm n s hc hsm hrange hrun
  have hinv : Inv s := (Inv.startState hc hsm hrange program schedule).run hrun
  exact ⟨hinv.rowInRange, hinv.srcOfRow, hinv.kInRange, hinv.kOfIdle, hinv.kOfComplete, hinv.hcntInRange,
    hinv.vcntInRange, hinv.runPeriods, hinv.pendOfBusy, hinv.vsyncLow⟩

end Sys2Proof.Machine
end

section
/-! The step that raises the sync flag (R22, R122, R128). -/
namespace Sys2Proof.Machine

variable {s t : State}

/-- INIT leaves the sync flag low (R226). -/
theorem step_vsync_of_hostInits (hinit : hostInits s) (h : step s = .next t) : t.vsync = false := by
  obtain ⟨hturn, hb, w, f, hhead, hdec⟩ := hinit
  obtain ⟨rest, hbox⟩ := List.head?_eq_some_iff.1 hhead
  obtain ⟨hwf, -⟩ := step_next h
  rw [stepRunsDecodedCommand s w _ rest hwf hturn hbox hdec] at h
  obtain rfl := Host.Outcome.next.inj (h.symm.trans (exec_immediate_of_idle rfl hb))
  rfl

/-- Reset leaves the sync flag low (R37). -/
theorem step_vsync_of_hostResets (hreset : hostResets s) (h : step s = .next t) : t.vsync = false := by
  obtain ⟨hturn, hhead⟩ := hreset
  obtain ⟨rest, hbox⟩ := List.head?_eq_some_iff.1 hhead
  obtain ⟨-, h⟩ := step_next h
  rw [hturn] at h
  obtain ⟨hvalues, -, -⟩ := resetLeavesItsValues
  obtain ⟨u, hu, ⟨hlow, -⟩, -⟩ := hvalues (takeTurn s) rest hbox
  obtain rfl := Host.Outcome.next.inj (h.symm.trans hu)
  exact hlow

/-- A tick raises the sync flag only at the frame event, and with the timers stopped there is no tick (R122, R126). -/
theorem tgStep_raises_vsync (h : tgStep s = .next t) (hs : s.vsync = false) (ht : t.vsync = true) :
    s.run = true ∧ s.hcnt.toNat = 0 ∧ s.vcnt.toNat = s.cfg.vBp := by
  obtain rfl := Host.Outcome.next.inj h
  split at ht
  · rename_i hrun
    exact ⟨hrun, by simpa [tick, frameEvent, hs] using ht⟩
  · simp [hs] at ht

/-- Settles O23: by the agent whose turn it is; only the TG raises the flag, and while it is low the Transfer Engine is
between frames. -/
theorem vsyncRisesOnlyAtTheFrameEvent : Obligations.VsyncRisesOnlyAtTheFrameEvent := by
  intro s t hinv hstep hs ht
  have hchanged : t.vsync ≠ s.vsync := by simp [hs, ht]
  obtain ⟨hrow, hidle⟩ := hinv.vsyncLow hs
  obtain ⟨-, h⟩ := step_next hstep
  cases hturn : nextAgent s with
  | host =>
    rw [hturn] at h
    obtain hsame | hinit | hreset := hostTurn_sameDisplay hturn h
    · exact absurd hsame.vsync hchanged
    · simp [step_vsync_of_hostInits hinit hstep] at ht
    · simp [step_vsync_of_hostResets hreset hstep] at ht
  | tg =>
    rw [hturn] at h
    obtain ⟨hrun, hhcnt, hvcnt⟩ := tgStep_raises_vsync (s := takeTurn s) h hs ht
    exact ⟨rfl, hrun, hhcnt, hvcnt, hrow, hidle⟩
  | te =>
    rw [hturn] at h
    obtain hkept | ⟨hcomplete, -⟩ := teStep_vsync h
    · exact absurd hkept hchanged
    · exact absurd (hcomplete.symm.trans hidle) (by decide)
  | de =>
    rw [hturn] at h
    exact absurd (deStep_vsync h) hchanged

end Sys2Proof.Machine
end
